-- ==== Sys2Proof/Word.lean ====
section
/-! DEFINITION. The word types of the core (00_scope.md rule R8): 32-bit registers and addresses,
16-bit instruction words, bytes, and the 3-bit register numbers of the encodings. -/

namespace Sys2Proof

/-- A register, an address, or an operand value zero-extended to 32 bits (R8). -/
abbrev Word := BitVec 32

/-- An instruction or extension word, or the status register (R8). -/
abbrev Half := BitVec 16

/-- A byte of memory. -/
abbrev Byte := BitVec 8

/-- A register number 0..7 (R112), and any other 3-bit field. -/
abbrev RegNo := Fin 8

/-- A 3-bit function code (R79). -/
abbrev FC := BitVec 3

end Sys2Proof
end

