-- ==== Sys2Proof/Config.lean ====
section
/-! DEFINITION. What is fixed for one machine (00_scope.md rule R7) and the free values of the model.
The parameters of R7 are plain data (`Params`), held unchanged in the state so that every statement
about all states is a statement about all parameters. The free values are constants without a body. -/

namespace Sys2Proof

/-- `MODEL` (R2, R7): the modelled parts, in the order of R2. -/
inductive Model where
  | mc68000 | mc68010 | mc68020
  deriving DecidableEq, Repr

/-- `MODEL ≥ mc68010` (R3). -/
def Model.atLeast10 : Model → Bool
  | .mc68000 => false
  | .mc68010 => true
  | .mc68020 => true

/-- `MODEL = mc68020`. -/
def Model.is20 : Model → Bool
  | .mc68000 => false
  | .mc68010 => false
  | .mc68020 => true

/-- `SR_MASK(MODEL)` (R39). -/
def Model.srMask : Model → Half
  | .mc68000 => 0xA71F
  | .mc68010 => 0xA71F
  | .mc68020 => 0xF71F

/-- `UNDEFINED_FLAGS` (R7, R193). -/
inductive UndefinedFlags where
  | unchanged | draw
  deriving DecidableEq, Repr

/-- `DIV_OVERFLOW_FLAGS` (R7, R254). -/
inductive DivOverflowFlags where
  | unchanged | silicon
  deriving DecidableEq, Repr

/-- What an access wants of the Memory Interface (R70, `intent`). -/
inductive Intent where
  | read | write
  deriving DecidableEq, Repr

/-- What the host does with a multi-byte access that crosses 0xFFFFFFFF (R77: "the host decides"). -/
inductive TopPolicy where
  | wrap | fail
  deriving DecidableEq, Repr

/-- A window of addresses `lo..hi` (both included) in which the host answers `ok = false` (R70, R84):
in one function-code space, or in every space (`fc = none`), for reads, for writes, or for both. -/
structure Hole where
  fc : Option FC
  lo : Word
  hi : Word
  denyRead : Bool
  denyWrite : Bool
  deriving DecidableEq, Repr

/-- A window of addresses `lo..hi` (both included), in one function-code space or in every space (`fc = none`). -/
structure Window where
  fc : Option FC
  lo : Word
  hi : Word
  deriving DecidableEq, Repr

/-- The fixed part of the host's Memory Interface `MEM` (R70, R79, R84): which bank of bytes serves each
function code ("the host decides whether any two spaces alias"), which accesses fail, how an access across the
top address is answered, where a write succeeds without effect, and where the answers are the host's own:
there every call, by its function code, address and width, has any answer and any side effect on later ones
(R70, R83), as a free value (`Config.hostReply`). A map whose `own` covers every address is a host of which
nothing is known. DESIGN CHOICE (log entry 2). -/
structure MemMap where
  bank : Vector (Fin 8) 8
  holes : List Hole
  top : TopPolicy
  rom : List Window := []
  own : List Window := []
  deriving DecidableEq, Repr

/-- A call of the Memory Interface (R70): `bytes` is the width, `value` what a write passes (0 for a read). -/
structure HostCall where
  intent : Intent
  fc : FC
  addr : Word
  bytes : Nat
  value : Word
  deriving DecidableEq, Repr

/-- What the host answers to a call (R70): `ok`, and the value of a read. -/
structure HostReply where
  ok : Bool
  value : Word
  deriving Inhabited, DecidableEq, Repr

/-- The implementation parameters of R7. -/
structure Params where
  model : Model
  mem : MemMap
  /-- `BKPT_CB` is present (R18); what it answers is `bkptCallback` of Machine/Ops.lean. -/
  bkptPresent : Bool
  undefinedFlags : UndefinedFlags
  divOverflow : DivOverflowFlags
  deriving DecidableEq, Repr

/-- Plain memory (R76): every access succeeds and all eight spaces are the same bytes. -/
def MemMap.plain : MemMap := { bank := Vector.replicate 8 0, holes := [], top := .wrap }

namespace Config

/-- The n-th free 32-bit value: a register after a faulting access (R135 (a)). -/
opaque freeWord : Nat → Word

/-- The n-th free byte: a memory byte after a faulting access (R135 (a)) or a failed frame write (R461). -/
opaque freeByte : Nat → Byte

/-- The n-th free flag: an undefined flag under `UNDEFINED_FLAGS = draw` (R193). -/
opaque freeFlag : Nat → Bool

/-- The n-th free condition-code byte: the CCR after a faulting access (R135 (a)). -/
opaque freeCcr : Nat → Byte

/-- The n-th free instruction word: an extension word whose fetch fails (log entry 9). -/
opaque freeExt : Nat → Half

/-- The host's answer to the n-th free call in a window of its own (R70, R83). -/
opaque hostReply : Nat → HostCall → HostReply

end Config

end Sys2Proof
end

