-- ==== Sys2Proof/Syntax.lean ====
section
/-! DEFINITION. The instruction set as syntax: one constructor of `Instr` for every row of
spec/opcode_table.json (30_encoding.md rules R115 and R120), with every operand of its opcode word and of
its extension words. -/

namespace Sys2Proof

/-- Operand sizes B, W, L (R11). -/
inductive Size where
  | b | w | l
  deriving DecidableEq, Repr

/-- `w(sz)` (R11). -/
def Size.bits : Size → Nat
  | .b => 8
  | .w => 16
  | .l => 32

/-- `bytes(sz)` (R11). -/
def Size.bytes : Size → Nat
  | .b => 1
  | .w => 2
  | .l => 4

/-- The sixteen condition tests (R195), in the order of their codes. -/
inductive Cond where
  | t | f | hi | ls | cc | cs | ne | eq | vc | vs | pl | mi | ge | lt | gt | le
  deriving DecidableEq, Repr

/-- The brief extension word of the indexed modes (R108). `scale` (bits 10:9) and `full` (bit 8) are kept:
they are ignored up to mc68010 and refused on mc68020 when not zero. -/
structure Brief where
  isA : Bool
  reg : RegNo
  long : Bool
  scale : Fin 4
  full : Bool
  disp : Byte
  deriving DecidableEq, Repr

/-- The twelve addressing modes with their extension words (R107, R152 to R163). An immediate is held
zero-extended; `Ea.immFits` says it has the operand size. -/
inductive Ea where
  | dreg (n : RegNo)
  | areg (n : RegNo)
  | ind (n : RegNo)
  | postinc (n : RegNo)
  | predec (n : RegNo)
  | disp (n : RegNo) (d : Half)
  | index (n : RegNo) (x : Brief)
  | absW (a : Half)
  | absL (a : Word)
  | pcDisp (d : Half)
  | pcIndex (x : Brief)
  | imm (v : Word)
  deriving DecidableEq, Repr

/-- A 6-bit effective-address field as it stands in an opcode word (R107). -/
structure EaField where
  mode : RegNo
  reg : RegNo
  deriving DecidableEq, Repr

/-- The displacement of Bcc, BRA and BSR: the 8-bit field, or the word after the opcode (R111). -/
inductive BranchDisp where
  | short (d : Byte)
  | word (d : Half)
  deriving DecidableEq, Repr

/-- The count of a register shift: the field `ccc` (0 means 8), or a data register (R310). -/
inductive ShiftCount where
  | quick (c : RegNo)
  | reg (n : RegNo)
  deriving DecidableEq, Repr

/-- A general register named by an extension word: bit 15 and bits 14:12 (R412). -/
inductive GReg where
  | d (n : RegNo)
  | a (n : RegNo)
  deriving DecidableEq, Repr

/-- The instructions, one constructor per row of spec/opcode_table.json, in its order. -/
inductive Instr where
  -- line 0: immediates, bit instructions, MOVEP, MOVES
  | oriCcr (imm : Byte)
  | oriSr (imm : Half)
  | ori (sz : Size) (imm : Word) (ea : Ea)
  | andiCcr (imm : Byte)
  | andiSr (imm : Half)
  | andi (sz : Size) (imm : Word) (ea : Ea)
  | subi (sz : Size) (imm : Word) (ea : Ea)
  | addi (sz : Size) (imm : Word) (ea : Ea)
  | btstI (bit : Byte) (ea : Ea)
  | bchgI (bit : Byte) (ea : Ea)
  | bclrI (bit : Byte) (ea : Ea)
  | bsetI (bit : Byte) (ea : Ea)
  | eoriCcr (imm : Byte)
  | eoriSr (imm : Half)
  | eori (sz : Size) (imm : Word) (ea : Ea)
  | cmpi (sz : Size) (imm : Word) (ea : Ea)
  | moves (sz : Size) (toMem : Bool) (r : GReg) (ea : Ea)
  | btstD (dn : RegNo) (ea : Ea)
  | bchgD (dn : RegNo) (ea : Ea)
  | bclrD (dn : RegNo) (ea : Ea)
  | bsetD (dn : RegNo) (ea : Ea)
  | movepLoadW (dx ay : RegNo) (d : Half)
  | movepLoadL (dx ay : RegNo) (d : Half)
  | movepStoreW (dx ay : RegNo) (d : Half)
  | movepStoreL (dx ay : RegNo) (d : Half)
  -- lines 1 to 3: MOVE
  | moveB (src dst : Ea)
  | moveL (src dst : Ea)
  | moveW (src dst : Ea)
  | moveaL (an : RegNo) (src : Ea)
  | moveaW (an : RegNo) (src : Ea)
  -- line 4: miscellaneous
  | negx (sz : Size) (ea : Ea)
  | moveFromSr (ea : Ea)
  | chk (dn : RegNo) (ea : Ea)
  | lea (an : RegNo) (ea : Ea)
  | clr (sz : Size) (ea : Ea)
  | moveFromCcr (ea : Ea)
  | neg (sz : Size) (ea : Ea)
  | moveToCcr (ea : Ea)
  | notEa (sz : Size) (ea : Ea)
  | moveToSr (ea : Ea)
  | nbcd (ea : Ea)
  | swap (dn : RegNo)
  | bkpt (v : RegNo)
  | pea (ea : Ea)
  | extW (dn : RegNo)
  | extL (dn : RegNo)
  | movemToMem (sz : Size) (mask : Half) (ea : Ea)
  | movemToPredec (sz : Size) (mask : Half) (an : RegNo)
  | tst (sz : Size) (ea : Ea)
  | tas (ea : Ea)
  | illegal
  | movemFromMem (sz : Size) (mask : Half) (ea : Ea)
  | movemFromPostinc (sz : Size) (mask : Half) (an : RegNo)
  | trap (v : Fin 16)
  | link (an : RegNo) (d : Half)
  | unlk (an : RegNo)
  | moveToUsp (an : RegNo)
  | moveFromUsp (an : RegNo)
  | reset
  | nop
  | stop (imm : Half)
  | rte
  | rtd (d : Half)
  | rts
  | trapv
  | rtr
  | movecFrom (r : GReg) (code : BitVec 12)
  | movecTo (r : GReg) (code : BitVec 12)
  | jsr (ea : Ea)
  | jmp (ea : Ea)
  -- line 5
  | addq (sz : Size) (q : RegNo) (ea : Ea)
  | subq (sz : Size) (q : RegNo) (ea : Ea)
  | dbcc (c : Cond) (dn : RegNo) (d : Half)
  | scc (c : Cond) (ea : Ea)
  -- line 6
  | bra (d : BranchDisp)
  | bsr (d : BranchDisp)
  | bcc (c : Cond) (d : BranchDisp)
  -- line 7
  | moveq (dn : RegNo) (imm : Byte)
  -- line 8
  | orToReg (sz : Size) (dn : RegNo) (ea : Ea)
  | orToMem (sz : Size) (dn : RegNo) (ea : Ea)
  | divu (dn : RegNo) (ea : Ea)
  | divs (dn : RegNo) (ea : Ea)
  | sbcdReg (dx dy : RegNo)
  | sbcdMem (ax ay : RegNo)
  -- line 9
  | subToReg (sz : Size) (dn : RegNo) (ea : Ea)
  | subToMem (sz : Size) (dn : RegNo) (ea : Ea)
  | suba (sz : Size) (an : RegNo) (ea : Ea)
  | subxReg (sz : Size) (dx dy : RegNo)
  | subxMem (sz : Size) (ax ay : RegNo)
  -- line A
  | lineA (low : BitVec 12)
  -- line B
  | cmp (sz : Size) (dn : RegNo) (ea : Ea)
  | cmpa (sz : Size) (an : RegNo) (ea : Ea)
  | eor (sz : Size) (dn : RegNo) (ea : Ea)
  | cmpm (sz : Size) (ax ay : RegNo)
  -- line C
  | andToReg (sz : Size) (dn : RegNo) (ea : Ea)
  | andToMem (sz : Size) (dn : RegNo) (ea : Ea)
  | mulu (dn : RegNo) (ea : Ea)
  | muls (dn : RegNo) (ea : Ea)
  | abcdReg (dx dy : RegNo)
  | abcdMem (ax ay : RegNo)
  | exgDD (dx dy : RegNo)
  | exgAA (ax ay : RegNo)
  | exgDA (dx ay : RegNo)
  -- line D
  | addToReg (sz : Size) (dn : RegNo) (ea : Ea)
  | addToMem (sz : Size) (dn : RegNo) (ea : Ea)
  | adda (sz : Size) (an : RegNo) (ea : Ea)
  | addxReg (sz : Size) (dx dy : RegNo)
  | addxMem (sz : Size) (ax ay : RegNo)
  -- line E
  | asrReg (sz : Size) (c : ShiftCount) (dn : RegNo)
  | aslReg (sz : Size) (c : ShiftCount) (dn : RegNo)
  | asrMem (ea : Ea)
  | aslMem (ea : Ea)
  | lsrReg (sz : Size) (c : ShiftCount) (dn : RegNo)
  | lslReg (sz : Size) (c : ShiftCount) (dn : RegNo)
  | lsrMem (ea : Ea)
  | lslMem (ea : Ea)
  | roxrReg (sz : Size) (c : ShiftCount) (dn : RegNo)
  | roxlReg (sz : Size) (c : ShiftCount) (dn : RegNo)
  | roxrMem (ea : Ea)
  | roxlMem (ea : Ea)
  | rorReg (sz : Size) (c : ShiftCount) (dn : RegNo)
  | rolReg (sz : Size) (c : ShiftCount) (dn : RegNo)
  | rorMem (ea : Ea)
  | rolMem (ea : Ea)
  -- line F
  | lineF (low : BitVec 12)
  -- the MC68020-only patterns of R120
  | chk2Cmp2 (ss : Fin 4) (ea : EaField)
  | cas (ss : Fin 4) (ea : EaField)
  | rtm (isA : Bool) (rn : RegNo)
  | callm (ea : EaField)
  | chkL (dn : RegNo) (ea : EaField)
  | linkL (an : RegNo)
  | extbL (dn : RegNo)
  | mulL (ea : EaField)
  | divL (ea : EaField)
  | trapcc (c : Cond) (op : RegNo)
  | pack (y : RegNo) (mem : Bool) (x : RegNo)
  | unpk (y : RegNo) (mem : Bool) (x : RegNo)
  | bitField (op : RegNo) (ea : EaField)
  | tst20 (sz : Size) (ea : EaField)
  | cmpi20 (sz : Size) (ea : EaField)
  | bccL (c : Cond)
  deriving DecidableEq, Repr

end Sys2Proof
end

