-- ==== Sys2Proof/WellFormed.lean ====
section
/-! DEFINITION. Which terms of `Instr` are instructions: the operand constraints of R113 and R115 as checks
(`Instr.wf`), and the model ranges of R115 and R120 (`Instr.onModel`). -/

namespace Sys2Proof

/-- The effective-address classes (R113). -/
inductive EaClass where
  | all | data | dataNoImm | memory | control | alterable | dataAlterable | memoryAlterable | controlAlterable
  deriving DecidableEq, Repr

/-- The modes a class admits (R113), for a mode number and a register number of R107. -/
def EaClass.admits (k : EaClass) (mode reg : Nat) : Bool :=
  match k with
  | .all => decide (mode ≤ 6) || decide (mode = 7 ∧ reg ≤ 4)
  | .data => decide (mode ≤ 6 ∧ mode ≠ 1) || decide (mode = 7 ∧ reg ≤ 4)
  | .dataNoImm => decide (mode ≤ 6 ∧ mode ≠ 1) || decide (mode = 7 ∧ reg ≤ 3)
  | .memory => decide (2 ≤ mode ∧ mode ≤ 6) || decide (mode = 7 ∧ reg ≤ 4)
  | .control => decide (mode = 2 ∨ mode = 5 ∨ mode = 6) || decide (mode = 7 ∧ reg ≤ 3)
  | .alterable => decide (mode ≤ 6) || decide (mode = 7 ∧ reg ≤ 1)
  | .dataAlterable => decide (mode ≤ 6 ∧ mode ≠ 1) || decide (mode = 7 ∧ reg ≤ 1)
  | .memoryAlterable => decide (2 ≤ mode ∧ mode ≤ 6) || decide (mode = 7 ∧ reg ≤ 1)
  | .controlAlterable => decide (mode = 2 ∨ mode = 5 ∨ mode = 6) || decide (mode = 7 ∧ reg ≤ 1)

/-- The effective-address field of an addressing mode (R107). -/
def Ea.field : Ea → EaField
  | .dreg n => ⟨0, n⟩
  | .areg n => ⟨1, n⟩
  | .ind n => ⟨2, n⟩
  | .postinc n => ⟨3, n⟩
  | .predec n => ⟨4, n⟩
  | .disp n _ => ⟨5, n⟩
  | .index n _ => ⟨6, n⟩
  | .absW _ => ⟨7, 0⟩
  | .absL _ => ⟨7, 1⟩
  | .pcDisp _ => ⟨7, 2⟩
  | .pcIndex _ => ⟨7, 3⟩
  | .imm _ => ⟨7, 4⟩

/-- A class admits a field as it stands in an opcode word. -/
def EaClass.admitsField (k : EaClass) (f : EaField) : Bool := k.admits f.mode.val f.reg.val

/-- A value has the operand size: it is below `2^w(sz)` (R11, R109). -/
def Size.fits (sz : Size) (v : Word) : Bool := decide (v.toNat < 2 ^ sz.bits)

/-- An immediate has the operand size (R109); the other modes carry no operand value. -/
def Ea.immFits (sz : Size) : Ea → Bool
  | .imm v => sz.fits v
  | _ => true

/-- "An not allowed for B" (R113). -/
def Ea.byteOk (sz : Size) : Ea → Bool
  | .areg _ => decide (sz ≠ .b)
  | _ => true

/-- An operand of a class at a size. -/
def Ea.ok (k : EaClass) (sz : Size) (ea : Ea) : Bool :=
  k.admitsField ea.field && ea.immFits sz

/-- The sizes of the one-bit size fields: W and L (R106). -/
def Size.isWL : Size → Bool
  | .b => false
  | .w => true
  | .l => true

/-- An 8-bit displacement of 0 is the mark of the 16-bit form (R111), so it is no short displacement. -/
def BranchDisp.wf : BranchDisp → Bool
  | .short d => decide (d ≠ 0)
  | .word _ => true

/-- The displacement byte 0xFF, which mc68020 reads as its 32-bit form (R120, R382). -/
def BranchDisp.isFF : BranchDisp → Bool
  | .short d => decide (d = 0xFF)
  | .word _ => false

/-- Bcc has the conditions 0010 to 1111 (R370). -/
def Cond.isBcc : Cond → Bool
  | .t => false
  | .f => false
  | _ => true

/-- A well-formed instruction: the operand constraints of its row of R115 or R120 hold. -/
def Instr.wf : Instr → Bool
  | .oriCcr _ => true
  | .oriSr _ => true
  | .ori sz imm ea => sz.fits imm && ea.ok .dataAlterable sz
  | .andiCcr _ => true
  | .andiSr _ => true
  | .andi sz imm ea => sz.fits imm && ea.ok .dataAlterable sz
  | .subi sz imm ea => sz.fits imm && ea.ok .dataAlterable sz
  | .addi sz imm ea => sz.fits imm && ea.ok .dataAlterable sz
  | .btstI _ ea => ea.ok .dataNoImm .b
  | .bchgI _ ea => ea.ok .dataAlterable .b
  | .bclrI _ ea => ea.ok .dataAlterable .b
  | .bsetI _ ea => ea.ok .dataAlterable .b
  | .eoriCcr _ => true
  | .eoriSr _ => true
  | .eori sz imm ea => sz.fits imm && ea.ok .dataAlterable sz
  | .cmpi sz imm ea => sz.fits imm && ea.ok .dataAlterable sz
  | .moves sz _ _ ea => ea.ok .memoryAlterable sz
  | .btstD _ ea => ea.ok .data .b
  | .bchgD _ ea => ea.ok .dataAlterable .b
  | .bclrD _ ea => ea.ok .dataAlterable .b
  | .bsetD _ ea => ea.ok .dataAlterable .b
  | .movepLoadW _ _ _ => true
  | .movepLoadL _ _ _ => true
  | .movepStoreW _ _ _ => true
  | .movepStoreL _ _ _ => true
  | .moveB src dst => src.ok .all .b && src.byteOk .b && dst.ok .dataAlterable .b
  | .moveL src dst => src.ok .all .l && dst.ok .dataAlterable .l
  | .moveW src dst => src.ok .all .w && dst.ok .dataAlterable .w
  | .moveaL _ src => src.ok .all .l
  | .moveaW _ src => src.ok .all .w
  | .negx sz ea => ea.ok .dataAlterable sz
  | .moveFromSr ea => ea.ok .dataAlterable .w
  | .chk _ ea => ea.ok .data .w
  | .lea _ ea => ea.ok .control .l
  | .clr sz ea => ea.ok .dataAlterable sz
  | .moveFromCcr ea => ea.ok .dataAlterable .w
  | .neg sz ea => ea.ok .dataAlterable sz
  | .moveToCcr ea => ea.ok .data .w
  | .notEa sz ea => ea.ok .dataAlterable sz
  | .moveToSr ea => ea.ok .data .w
  | .nbcd ea => ea.ok .dataAlterable .b
  | .swap _ => true
  | .bkpt _ => true
  | .pea ea => ea.ok .control .l
  | .extW _ => true
  | .extL _ => true
  | .movemToMem sz _ ea => sz.isWL && ea.ok .controlAlterable sz
  | .movemToPredec sz _ _ => sz.isWL
  | .tst sz ea => ea.ok .dataAlterable sz
  | .tas ea => ea.ok .dataAlterable .b
  | .illegal => true
  | .movemFromMem sz _ ea => sz.isWL && ea.ok .control sz
  | .movemFromPostinc sz _ _ => sz.isWL
  | .trap _ => true
  | .link _ _ => true
  | .unlk _ => true
  | .moveToUsp _ => true
  | .moveFromUsp _ => true
  | .reset => true
  | .nop => true
  | .stop _ => true
  | .rte => true
  | .rtd _ => true
  | .rts => true
  | .trapv => true
  | .rtr => true
  | .movecFrom _ _ => true
  | .movecTo _ _ => true
  | .jsr ea => ea.ok .control .l
  | .jmp ea => ea.ok .control .l
  | .addq sz _ ea => ea.ok .alterable sz && ea.byteOk sz
  | .subq sz _ ea => ea.ok .alterable sz && ea.byteOk sz
  | .dbcc _ _ _ => true
  | .scc _ ea => ea.ok .dataAlterable .b
  | .bra d => d.wf
  | .bsr d => d.wf
  | .bcc c d => c.isBcc && d.wf
  | .moveq _ _ => true
  | .orToReg sz _ ea => ea.ok .data sz
  | .orToMem sz _ ea => ea.ok .memoryAlterable sz
  | .divu _ ea => ea.ok .data .w
  | .divs _ ea => ea.ok .data .w
  | .sbcdReg _ _ => true
  | .sbcdMem _ _ => true
  | .subToReg sz _ ea => ea.ok .all sz && ea.byteOk sz
  | .subToMem sz _ ea => ea.ok .memoryAlterable sz
  | .suba sz _ ea => sz.isWL && ea.ok .all sz
  | .subxReg _ _ _ => true
  | .subxMem _ _ _ => true
  | .lineA _ => true
  | .cmp sz _ ea => ea.ok .all sz && ea.byteOk sz
  | .cmpa sz _ ea => sz.isWL && ea.ok .all sz
  | .eor sz _ ea => ea.ok .dataAlterable sz
  | .cmpm _ _ _ => true
  | .andToReg sz _ ea => ea.ok .data sz
  | .andToMem sz _ ea => ea.ok .memoryAlterable sz
  | .mulu _ ea => ea.ok .data .w
  | .muls _ ea => ea.ok .data .w
  | .abcdReg _ _ => true
  | .abcdMem _ _ => true
  | .exgDD _ _ => true
  | .exgAA _ _ => true
  | .exgDA _ _ => true
  | .addToReg sz _ ea => ea.ok .all sz && ea.byteOk sz
  | .addToMem sz _ ea => ea.ok .memoryAlterable sz
  | .adda sz _ ea => sz.isWL && ea.ok .all sz
  | .addxReg _ _ _ => true
  | .addxMem _ _ _ => true
  | .asrReg _ _ _ => true
  | .aslReg _ _ _ => true
  | .asrMem ea => ea.ok .memoryAlterable .w
  | .aslMem ea => ea.ok .memoryAlterable .w
  | .lsrReg _ _ _ => true
  | .lslReg _ _ _ => true
  | .lsrMem ea => ea.ok .memoryAlterable .w
  | .lslMem ea => ea.ok .memoryAlterable .w
  | .roxrReg _ _ _ => true
  | .roxlReg _ _ _ => true
  | .roxrMem ea => ea.ok .memoryAlterable .w
  | .roxlMem ea => ea.ok .memoryAlterable .w
  | .rorReg _ _ _ => true
  | .rolReg _ _ _ => true
  | .rorMem ea => ea.ok .memoryAlterable .w
  | .rolMem ea => ea.ok .memoryAlterable .w
  | .lineF _ => true
  | .chk2Cmp2 ss ea => decide (ss ≠ 3) && EaClass.control.admitsField ea
  | .cas ss ea => decide (ss ≠ 0) && (EaClass.memoryAlterable.admitsField ea || decide (ss ≠ 1 ∧ ea = ⟨7, 4⟩))
  | .rtm _ _ => true
  | .callm ea => EaClass.control.admitsField ea
  | .chkL _ ea => EaClass.data.admitsField ea
  | .linkL _ => true
  | .extbL _ => true
  | .mulL ea => EaClass.data.admitsField ea
  | .divL ea => EaClass.data.admitsField ea
  | .trapcc _ op => decide (op = 2 ∨ op = 3 ∨ op = 4)
  | .pack _ _ _ => true
  | .unpk _ _ _ => true
  | .bitField _ _ => true
  | .tst20 sz ea =>
      decide (ea.mode = 1 ∧ sz ≠ .b) || decide (ea = ⟨7, 2⟩ ∨ ea = ⟨7, 3⟩ ∨ ea = ⟨7, 4⟩)
  | .cmpi20 _ ea => decide (ea = ⟨7, 2⟩ ∨ ea = ⟨7, 3⟩)
  | .bccL _ => true

/-- `MODEL` has the row (R3, R115), or is the model that R120 refuses the pattern on. -/
def Instr.onModel (m : Model) : Instr → Bool
  | .moves _ _ _ _ => m.atLeast10
  | .moveFromCcr _ => m.atLeast10
  | .rtd _ => m.atLeast10
  | .movecFrom _ _ => m.atLeast10
  | .movecTo _ _ => m.atLeast10
  | .bra d => !(m.is20 && d.isFF)
  | .bsr d => !(m.is20 && d.isFF)
  | .bcc _ d => !(m.is20 && d.isFF)
  | .chk2Cmp2 _ _ => m.is20
  | .cas _ _ => m.is20
  | .rtm _ _ => m.is20
  | .callm _ => m.is20
  | .chkL _ _ => m.is20
  | .linkL _ => m.is20
  | .extbL _ => m.is20
  | .mulL _ => m.is20
  | .divL _ => m.is20
  | .trapcc _ _ => m.is20
  | .pack _ _ _ => m.is20
  | .unpk _ _ _ => m.is20
  | .bitField _ _ => m.is20
  | .tst20 _ _ => m.is20
  | .cmpi20 _ _ => m.is20
  | .bccL _ => m.is20
  | _ => true

end Sys2Proof
end

