-- ==== Sys2Proof/Decode.lean ====
section
/-! DEFINITION. The decoder and the encoder (30_encoding.md). The opcode map is a table of rows read as R115
and R120 give it: a mask, a match, the operand constraints, and how the operands are read from the opcode
word and from the extension words in the order of R101. -/

namespace Sys2Proof

/-! ## Fields of a word -/

/-- Bits `lo + width - 1 .. lo` of a word, as a number (R10). -/
def field (op : Half) (lo width : Nat) : Nat := op.toNat / 2 ^ lo % 2 ^ width

/-- A 3-bit register field whose lowest bit is `lo` (R103). -/
def regAt (op : Half) (lo : Nat) : RegNo := Fin.ofNat 8 (op.toNat / 2 ^ lo)

/-- Bit `i` of a word. -/
def bitAt (op : Half) (i : Nat) : Bool := decide (op.toNat / 2 ^ i % 2 = 1)

/-- The effective-address field in bits 5:0 (R107). -/
def eaFieldOf (op : Half) : EaField := ⟨regAt op 3, regAt op 0⟩

/-- MOVE's destination field: mode in bits 8:6, register in bits 11:9 (R107). -/
def dstFieldOf (op : Half) : EaField := ⟨regAt op 6, regAt op 9⟩

/-- The standard size field, bits 7:6 (R106); 11 is kept out by the rows. -/
def sizeSS (op : Half) : Size :=
  match field op 6 2 with
  | 0 => .b
  | 1 => .w
  | _ => .l

/-- A one-bit size field: 0 = W, 1 = L (R106). -/
def sizeWL (op : Half) (i : Nat) : Size := if bitAt op i then .l else .w

/-- The code of a condition (R195). -/
def Cond.code : Cond → Nat
  | .t => 0 | .f => 1 | .hi => 2 | .ls => 3 | .cc => 4 | .cs => 5 | .ne => 6 | .eq => 7
  | .vc => 8 | .vs => 9 | .pl => 10 | .mi => 11 | .ge => 12 | .lt => 13 | .gt => 14 | .le => 15

/-- The condition of a code (R195). -/
def Cond.ofCode : Nat → Cond
  | 0 => .t | 1 => .f | 2 => .hi | 3 => .ls | 4 => .cc | 5 => .cs | 6 => .ne | 7 => .eq
  | 8 => .vc | 9 => .vs | 10 => .pl | 11 => .mi | 12 => .ge | 13 => .lt | 14 => .gt | _ => .le

/-- The condition field, bits 11:8 (R111). -/
def condOf (op : Half) : Cond := Cond.ofCode (field op 8 4)

/-! ## Extension words -/

/-- High word first (R104). -/
def joinWords (hi lo : Half) : Word := BitVec.ofNat 32 (hi.toNat * 65536 + lo.toNat)

/-- The high word of a long. -/
def hiWord (v : Word) : Half := BitVec.ofNat 16 (v.toNat / 65536)

/-- The low word of a long. -/
def loWord (v : Word) : Half := BitVec.ofNat 16 v.toNat

/-- The low byte of a word: bits 15:8 are ignored (R109, R110). -/
def loByte (w : Half) : Byte := BitVec.ofNat 8 w.toNat

/-- The brief extension word (R108). -/
def briefOf (w : Half) : Brief :=
  { isA := bitAt w 15, reg := regAt w 12, long := bitAt w 11, scale := Fin.ofNat 4 (w.toNat / 512)
    full := bitAt w 8, disp := loByte w }

/-- The word of a brief extension (R108). -/
def Brief.word (x : Brief) : Half :=
  BitVec.ofNat 16 (x.isA.toNat * 32768 + x.reg.val * 4096 + x.long.toNat * 2048 + x.scale.val * 512 +
    x.full.toNat * 256 + x.disp.toNat)

/-- The general register of a MOVEC or MOVES word: bit 15 and bits 14:12 (R412). -/
def gregOf (w : Half) : GReg := if bitAt w 15 then .a (regAt w 12) else .d (regAt w 12)

/-- Bits 15:12 of a MOVEC or MOVES word. -/
def GReg.bits : GReg → Nat
  | .d n => n.val * 4096
  | .a n => 32768 + n.val * 4096

/-- Read one extension word. -/
def readWord : List Half → Option (Half × List Half)
  | w :: ws => some (w, ws)
  | [] => none

/-- Read a long, high word first (R104). -/
def readLong : List Half → Option (Word × List Half)
  | hi :: lo :: ws => some (joinWords hi lo, ws)
  | _ => none

/-- Read an immediate of a size (R109): the upper byte of a byte immediate is ignored. -/
def readImm (sz : Size) (ws : List Half) : Option (Word × List Half) :=
  match sz with
  | .b => (readWord ws).map fun p => ((loByte p.1).setWidth 32, p.2)
  | .w => (readWord ws).map fun p => (p.1.setWidth 32, p.2)
  | .l => readLong ws

/-- Read the extension words of an effective-address field (R107). -/
def readEa (f : EaField) (sz : Size) (ws : List Half) : Option (Ea × List Half) :=
  match f.mode.val with
  | 0 => some (.dreg f.reg, ws)
  | 1 => some (.areg f.reg, ws)
  | 2 => some (.ind f.reg, ws)
  | 3 => some (.postinc f.reg, ws)
  | 4 => some (.predec f.reg, ws)
  | 5 => (readWord ws).map fun p => (.disp f.reg p.1, p.2)
  | 6 => (readWord ws).map fun p => (.index f.reg (briefOf p.1), p.2)
  | _ =>
    match f.reg.val with
    | 0 => (readWord ws).map fun p => (.absW p.1, p.2)
    | 1 => (readLong ws).map fun p => (.absL p.1, p.2)
    | 2 => (readWord ws).map fun p => (.pcDisp p.1, p.2)
    | 3 => (readWord ws).map fun p => (.pcIndex (briefOf p.1), p.2)
    | 4 => (readImm sz ws).map fun p => (.imm p.1, p.2)
    | _ => none

/-! ## Readers: how a row's operands are read -/

/-- Reads a row's operands from its opcode word and the words after it. -/
abbrev Reader := Half → List Half → Option (Instr × List Half)

/-- No extension word. -/
def rdOp (k : Half → Instr) : Reader := fun op ws => some (k op, ws)

/-- One extension word of the instruction's own. -/
def rdWord (k : Half → Half → Instr) : Reader := fun op ws =>
  (readWord ws).map fun p => (k op p.1, p.2)

/-- One effective address of a fixed size. -/
def rdEa (sz : Size) (k : Half → Ea → Instr) : Reader := fun op ws =>
  (readEa (eaFieldOf op) sz ws).map fun p => (k op p.1, p.2)

/-- One effective address whose size stands in the opcode word. -/
def rdSizedEa (sz : Half → Size) (k : Half → Size → Ea → Instr) : Reader := fun op ws =>
  (readEa (eaFieldOf op) (sz op) ws).map fun p => (k op (sz op) p.1, p.2)

/-- The instruction's own word, then an effective address (R101). -/
def rdWordEa (sz : Half → Size) (k : Half → Size → Half → Ea → Instr) : Reader := fun op ws =>
  (readWord ws).bind fun p => (readEa (eaFieldOf op) (sz op) p.2).map fun q => (k op (sz op) p.1 q.1, q.2)

/-- An immediate of the standard size, then an effective address (R101). -/
def rdImmEa (k : Size → Word → Ea → Instr) : Reader := fun op ws =>
  (readImm (sizeSS op) ws).bind fun p =>
    (readEa (eaFieldOf op) (sizeSS op) p.2).map fun q => (k (sizeSS op) p.1 q.1, q.2)

/-- MOVE: the source's words, then the destination's (R101). -/
def rdMove (sz : Size) (k : Ea → Ea → Instr) : Reader := fun op ws =>
  (readEa (eaFieldOf op) sz ws).bind fun p => (readEa (dstFieldOf op) sz p.2).map fun q => (k p.1 q.1, q.2)

/-- Bcc, BRA, BSR: the 8-bit displacement, or the word when it is 0 (R111). -/
def rdBranch (k : Half → BranchDisp → Instr) : Reader := fun op ws =>
  if field op 0 8 = 0 then (readWord ws).map fun p => (k op (.word p.1), p.2)
  else some (k op (.short (loByte op)), ws)

/-! ## Operand constraints -/

/-- A row's operand constraints beyond mask and match (R115). -/
abbrev Guard := Model → Half → Bool

/-- No constraint. -/
def gAll : Guard := fun _ _ => true

/-- The class of the effective-address field (R113). -/
def gEa (k : EaClass) : Guard := fun _ op => k.admitsField (eaFieldOf op)

/-- Size field not 11 (R106). -/
def gSize : Guard := fun _ op => decide (field op 6 2 ≠ 3)

/-- Size field not 11, and a class. -/
def gSizeEa (k : EaClass) : Guard := fun m op => gSize m op && gEa k m op

/-- Size field not 11, a class, and no An at size B (R113). -/
def gSizeEaNoAnB (k : EaClass) : Guard := fun m op =>
  gSizeEa k m op && decide (¬ (field op 6 2 = 0 ∧ field op 3 3 = 1))

/-- The row exists from mc68010 on (R3). -/
def g10 (g : Guard) : Guard := fun m op => m.atLeast10 && g m op

/-- The pattern is one of R120's, refused on mc68020 only. -/
def g20 (g : Half → Bool) : Guard := fun m op => m.is20 && g op

/-- A branch whose displacement byte is not mc68020's 0xFF (R116: the patterns of R120 come first). -/
def gBranch (g : Half → Bool) : Guard := fun m op => g op && !(m.is20 && decide (field op 0 8 = 255))

/-- A row of the opcode map. -/
structure Row where
  mnemonic : String
  pattern : Half
  mask : Half
  guard : Guard
  read : Reader

/-- A word selects a row (R115). -/
def Row.selects (m : Model) (op : Half) (r : Row) : Bool :=
  decide (op &&& r.mask = r.pattern) && r.guard m op

/-! ## The opcode map (R115, R120), by line (bits 15:12) -/

def rows0 : List Row := [
  ⟨"ORI_to_CCR", 0x003C, 0xFFFF, gAll, rdWord fun _ w => .oriCcr (loByte w)⟩,
  ⟨"ORI_to_SR", 0x007C, 0xFFFF, gAll, rdWord fun _ w => .oriSr w⟩,
  ⟨"ORI", 0x0000, 0xFF00, gSizeEa .dataAlterable, rdImmEa .ori⟩,
  ⟨"ANDI_to_CCR", 0x023C, 0xFFFF, gAll, rdWord fun _ w => .andiCcr (loByte w)⟩,
  ⟨"ANDI_to_SR", 0x027C, 0xFFFF, gAll, rdWord fun _ w => .andiSr w⟩,
  ⟨"ANDI", 0x0200, 0xFF00, gSizeEa .dataAlterable, rdImmEa .andi⟩,
  ⟨"SUBI", 0x0400, 0xFF00, gSizeEa .dataAlterable, rdImmEa .subi⟩,
  ⟨"ADDI", 0x0600, 0xFF00, gSizeEa .dataAlterable, rdImmEa .addi⟩,
  ⟨"BTST", 0x0800, 0xFFC0, gEa .dataNoImm, rdWordEa (fun _ => .b) fun _ _ w ea => .btstI (loByte w) ea⟩,
  ⟨"BCHG", 0x0840, 0xFFC0, gEa .dataAlterable, rdWordEa (fun _ => .b) fun _ _ w ea => .bchgI (loByte w) ea⟩,
  ⟨"BCLR", 0x0880, 0xFFC0, gEa .dataAlterable, rdWordEa (fun _ => .b) fun _ _ w ea => .bclrI (loByte w) ea⟩,
  ⟨"BSET", 0x08C0, 0xFFC0, gEa .dataAlterable, rdWordEa (fun _ => .b) fun _ _ w ea => .bsetI (loByte w) ea⟩,
  ⟨"EORI_to_CCR", 0x0A3C, 0xFFFF, gAll, rdWord fun _ w => .eoriCcr (loByte w)⟩,
  ⟨"EORI_to_SR", 0x0A7C, 0xFFFF, gAll, rdWord fun _ w => .eoriSr w⟩,
  ⟨"EORI", 0x0A00, 0xFF00, gSizeEa .dataAlterable, rdImmEa .eori⟩,
  ⟨"CMPI", 0x0C00, 0xFF00, gSizeEa .dataAlterable, rdImmEa .cmpi⟩,
  ⟨"MOVES", 0x0E00, 0xFF00, g10 (gSizeEa .memoryAlterable),
    rdWordEa sizeSS fun _ sz w ea => .moves sz (bitAt w 11) (gregOf w) ea⟩,
  ⟨"BTST_Dn", 0x0100, 0xF1C0, gEa .data, rdEa .b fun op ea => .btstD (regAt op 9) ea⟩,
  ⟨"BCHG_Dn", 0x0140, 0xF1C0, gEa .dataAlterable, rdEa .b fun op ea => .bchgD (regAt op 9) ea⟩,
  ⟨"BCLR_Dn", 0x0180, 0xF1C0, gEa .dataAlterable, rdEa .b fun op ea => .bclrD (regAt op 9) ea⟩,
  ⟨"BSET_Dn", 0x01C0, 0xF1C0, gEa .dataAlterable, rdEa .b fun op ea => .bsetD (regAt op 9) ea⟩,
  ⟨"MOVEP.W__d16_Ay__Dx", 0x0108, 0xF1F8, gAll, rdWord fun op w => .movepLoadW (regAt op 9) (regAt op 0) w⟩,
  ⟨"MOVEP.L__d16_Ay__Dx", 0x0148, 0xF1F8, gAll, rdWord fun op w => .movepLoadL (regAt op 9) (regAt op 0) w⟩,
  ⟨"MOVEP.W_Dx__d16_Ay", 0x0188, 0xF1F8, gAll, rdWord fun op w => .movepStoreW (regAt op 9) (regAt op 0) w⟩,
  ⟨"MOVEP.L_Dx__d16_Ay", 0x01C8, 0xF1F8, gAll, rdWord fun op w => .movepStoreL (regAt op 9) (regAt op 0) w⟩]

/-- Lines 0's patterns of R120. The words 0x0CFC and 0x0EFC (CAS2) belong to the CAS row. -/
def rows0Refused : List Row := [
  ⟨"CHK2_CMP2", 0x00C0, 0xF9C0, g20 fun op => decide (field op 9 2 ≠ 3) && gEa .control .mc68020 op,
    rdOp fun op => .chk2Cmp2 (Fin.ofNat 4 (field op 9 2)) (eaFieldOf op)⟩,
  ⟨"CAS", 0x08C0, 0xF9C0,
    g20 fun op => decide (field op 9 2 ≠ 0) &&
      (gEa .memoryAlterable .mc68020 op || decide (op = 0x0CFC ∨ op = 0x0EFC)),
    rdOp fun op => .cas (Fin.ofNat 4 (field op 9 2)) (eaFieldOf op)⟩,
  ⟨"RTM", 0x06C0, 0xFFF0, g20 fun _ => true, rdOp fun op => .rtm (bitAt op 3) (regAt op 0)⟩,
  ⟨"CALLM", 0x06C0, 0xFFC0, g20 (gEa .control .mc68020), rdOp fun op => .callm (eaFieldOf op)⟩,
  ⟨"CMPI__MC68020_modes", 0x0C00, 0xFF00,
    g20 fun op => gSize .mc68020 op && decide (eaFieldOf op = ⟨7, 2⟩ ∨ eaFieldOf op = ⟨7, 3⟩),
    rdOp fun op => .cmpi20 (sizeSS op) (eaFieldOf op)⟩]

def rows1 : List Row := [
  ⟨"MOVE.B", 0x1000, 0xF000,
    fun m op => gEa .all m op && decide (field op 3 3 ≠ 1) && EaClass.dataAlterable.admitsField (dstFieldOf op),
    rdMove .b .moveB⟩]

def rows2 : List Row := [
  ⟨"MOVE.L", 0x2000, 0xF000,
    fun m op => gEa .all m op && EaClass.dataAlterable.admitsField (dstFieldOf op), rdMove .l .moveL⟩,
  ⟨"MOVEA.L", 0x2040, 0xF1C0, gEa .all, rdEa .l fun op ea => .moveaL (regAt op 9) ea⟩]

def rows3 : List Row := [
  ⟨"MOVE.W", 0x3000, 0xF000,
    fun m op => gEa .all m op && EaClass.dataAlterable.admitsField (dstFieldOf op), rdMove .w .moveW⟩,
  ⟨"MOVEA.W", 0x3040, 0xF1C0, gEa .all, rdEa .w fun op ea => .moveaW (regAt op 9) ea⟩]

def rows4a : List Row := [
  ⟨"NEGX", 0x4000, 0xFF00, gSizeEa .dataAlterable, rdSizedEa sizeSS fun _ sz ea => .negx sz ea⟩,
  ⟨"MOVE_from_SR", 0x40C0, 0xFFC0, gEa .dataAlterable, rdEa .w fun _ ea => .moveFromSr ea⟩,
  ⟨"CHK.W", 0x4180, 0xF1C0, gEa .data, rdEa .w fun op ea => .chk (regAt op 9) ea⟩,
  ⟨"LEA", 0x41C0, 0xF1C0, gEa .control, rdEa .l fun op ea => .lea (regAt op 9) ea⟩,
  ⟨"CLR", 0x4200, 0xFF00, gSizeEa .dataAlterable, rdSizedEa sizeSS fun _ sz ea => .clr sz ea⟩,
  ⟨"MOVE_from_CCR", 0x42C0, 0xFFC0, g10 (gEa .dataAlterable), rdEa .w fun _ ea => .moveFromCcr ea⟩,
  ⟨"NEG", 0x4400, 0xFF00, gSizeEa .dataAlterable, rdSizedEa sizeSS fun _ sz ea => .neg sz ea⟩,
  ⟨"MOVE_to_CCR", 0x44C0, 0xFFC0, gEa .data, rdEa .w fun _ ea => .moveToCcr ea⟩,
  ⟨"NOT", 0x4600, 0xFF00, gSizeEa .dataAlterable, rdSizedEa sizeSS fun _ sz ea => .notEa sz ea⟩,
  ⟨"MOVE_to_SR", 0x46C0, 0xFFC0, gEa .data, rdEa .w fun _ ea => .moveToSr ea⟩,
  ⟨"NBCD", 0x4800, 0xFFC0, gEa .dataAlterable, rdEa .b fun _ ea => .nbcd ea⟩,
  ⟨"SWAP", 0x4840, 0xFFF8, gAll, rdOp fun op => .swap (regAt op 0)⟩,
  ⟨"BKPT", 0x4848, 0xFFF8, gAll, rdOp fun op => .bkpt (regAt op 0)⟩,
  ⟨"PEA", 0x4840, 0xFFC0, gEa .control, rdEa .l fun _ ea => .pea ea⟩,
  ⟨"EXT.W", 0x4880, 0xFFF8, gAll, rdOp fun op => .extW (regAt op 0)⟩,
  ⟨"EXT.L", 0x48C0, 0xFFF8, gAll, rdOp fun op => .extL (regAt op 0)⟩,
  ⟨"MOVEM_regs_to__ea", 0x4880, 0xFF80, gEa .controlAlterable,
    rdWordEa (sizeWL · 6) fun _ sz w ea => .movemToMem sz w ea⟩,
  ⟨"MOVEM_regs_to_-_An", 0x48A0, 0xFFB8, gAll,
    rdWord fun op w => .movemToPredec (sizeWL op 6) w (regAt op 0)⟩]

def rows4b : List Row := [
  ⟨"TST", 0x4A00, 0xFF00, gSizeEa .dataAlterable, rdSizedEa sizeSS fun _ sz ea => .tst sz ea⟩,
  ⟨"TAS", 0x4AC0, 0xFFC0, gEa .dataAlterable, rdEa .b fun _ ea => .tas ea⟩,
  ⟨"ILLEGAL", 0x4AFC, 0xFFFF, gAll, rdOp fun _ => .illegal⟩,
  ⟨"MOVEM__ea__to_regs", 0x4C80, 0xFF80, gEa .control,
    rdWordEa (sizeWL · 6) fun _ sz w ea => .movemFromMem sz w ea⟩,
  ⟨"MOVEM__An_+_to_regs", 0x4C98, 0xFFB8, gAll,
    rdWord fun op w => .movemFromPostinc (sizeWL op 6) w (regAt op 0)⟩,
  ⟨"TRAP", 0x4E40, 0xFFF0, gAll, rdOp fun op => .trap (Fin.ofNat 16 (field op 0 4))⟩,
  ⟨"LINK", 0x4E50, 0xFFF8, gAll, rdWord fun op w => .link (regAt op 0) w⟩,
  ⟨"UNLK", 0x4E58, 0xFFF8, gAll, rdOp fun op => .unlk (regAt op 0)⟩,
  ⟨"MOVE_An_USP", 0x4E60, 0xFFF8, gAll, rdOp fun op => .moveToUsp (regAt op 0)⟩,
  ⟨"MOVE_USP_An", 0x4E68, 0xFFF8, gAll, rdOp fun op => .moveFromUsp (regAt op 0)⟩,
  ⟨"RESET", 0x4E70, 0xFFFF, gAll, rdOp fun _ => .reset⟩,
  ⟨"NOP", 0x4E71, 0xFFFF, gAll, rdOp fun _ => .nop⟩,
  ⟨"STOP", 0x4E72, 0xFFFF, gAll, rdWord fun _ w => .stop w⟩,
  ⟨"RTE", 0x4E73, 0xFFFF, gAll, rdOp fun _ => .rte⟩,
  ⟨"RTD", 0x4E74, 0xFFFF, g10 gAll, rdWord fun _ w => .rtd w⟩,
  ⟨"RTS", 0x4E75, 0xFFFF, gAll, rdOp fun _ => .rts⟩,
  ⟨"TRAPV", 0x4E76, 0xFFFF, gAll, rdOp fun _ => .trapv⟩,
  ⟨"RTR", 0x4E77, 0xFFFF, gAll, rdOp fun _ => .rtr⟩,
  ⟨"MOVEC_Rc_Rn", 0x4E7A, 0xFFFF, g10 gAll, rdWord fun _ w => .movecFrom (gregOf w) (BitVec.ofNat 12 w.toNat)⟩,
  ⟨"MOVEC_Rn_Rc", 0x4E7B, 0xFFFF, g10 gAll, rdWord fun _ w => .movecTo (gregOf w) (BitVec.ofNat 12 w.toNat)⟩,
  ⟨"JSR", 0x4E80, 0xFFC0, gEa .control, rdEa .l fun _ ea => .jsr ea⟩,
  ⟨"JMP", 0x4EC0, 0xFFC0, gEa .control, rdEa .l fun _ ea => .jmp ea⟩]

/-- Line 4's patterns of R120. -/
def rows4Refused : List Row := [
  ⟨"CHK.L", 0x4100, 0xF1C0, g20 (gEa .data .mc68020), rdOp fun op => .chkL (regAt op 9) (eaFieldOf op)⟩,
  ⟨"LINK.L", 0x4808, 0xFFF8, g20 fun _ => true, rdOp fun op => .linkL (regAt op 0)⟩,
  ⟨"EXTB.L", 0x49C0, 0xFFF8, g20 fun _ => true, rdOp fun op => .extbL (regAt op 0)⟩,
  ⟨"MULS.L_MULU.L", 0x4C00, 0xFFC0, g20 (gEa .data .mc68020), rdOp fun op => .mulL (eaFieldOf op)⟩,
  ⟨"DIVS.L_DIVU.L", 0x4C40, 0xFFC0, g20 (gEa .data .mc68020), rdOp fun op => .divL (eaFieldOf op)⟩,
  ⟨"TST__MC68020_modes", 0x4A00, 0xFF00,
    g20 fun op => gSize .mc68020 op &&
      (decide (field op 3 3 = 1 ∧ field op 6 2 ≠ 0) ||
        decide (eaFieldOf op = ⟨7, 2⟩ ∨ eaFieldOf op = ⟨7, 3⟩ ∨ eaFieldOf op = ⟨7, 4⟩)),
    rdOp fun op => .tst20 (sizeSS op) (eaFieldOf op)⟩]

def rows5 : List Row := [
  ⟨"ADDQ", 0x5000, 0xF100, gSizeEaNoAnB .alterable,
    rdSizedEa sizeSS fun op sz ea => .addq sz (regAt op 9) ea⟩,
  ⟨"SUBQ", 0x5100, 0xF100, gSizeEaNoAnB .alterable,
    rdSizedEa sizeSS fun op sz ea => .subq sz (regAt op 9) ea⟩,
  ⟨"DBcc", 0x50C8, 0xF0F8, gAll, rdWord fun op w => .dbcc (condOf op) (regAt op 0) w⟩,
  ⟨"Scc", 0x50C0, 0xF0C0, gEa .dataAlterable, rdEa .b fun op ea => .scc (condOf op) ea⟩,
  ⟨"TRAPcc", 0x50F8, 0xF0F8,
    g20 fun op => decide (field op 0 3 = 2 ∨ field op 0 3 = 3 ∨ field op 0 3 = 4),
    rdOp fun op => .trapcc (condOf op) (regAt op 0)⟩]

def rows6 : List Row := [
  ⟨"BRA", 0x6000, 0xFF00, gBranch fun _ => true, rdBranch fun _ d => .bra d⟩,
  ⟨"BSR", 0x6100, 0xFF00, gBranch fun _ => true, rdBranch fun _ d => .bsr d⟩,
  ⟨"Bcc", 0x6000, 0xF000, gBranch fun op => decide (2 ≤ field op 8 4), rdBranch fun op d => .bcc (condOf op) d⟩,
  ⟨"Bcc.L_BRA.L_BSR.L", 0x6000, 0xF000, g20 fun op => decide (field op 0 8 = 255), rdOp fun op => .bccL (condOf op)⟩]

def rows7 : List Row := [
  ⟨"MOVEQ", 0x7000, 0xF100, gAll, rdOp fun op => .moveq (regAt op 9) (loByte op)⟩]

def rows8 : List Row := [
  ⟨"OR__ea__Dn", 0x8000, 0xF100, gSizeEa .data, rdSizedEa sizeSS fun op sz ea => .orToReg sz (regAt op 9) ea⟩,
  ⟨"OR_Dn__ea", 0x8100, 0xF100, gSizeEa .memoryAlterable,
    rdSizedEa sizeSS fun op sz ea => .orToMem sz (regAt op 9) ea⟩,
  ⟨"DIVU.W", 0x80C0, 0xF1C0, gEa .data, rdEa .w fun op ea => .divu (regAt op 9) ea⟩,
  ⟨"DIVS.W", 0x81C0, 0xF1C0, gEa .data, rdEa .w fun op ea => .divs (regAt op 9) ea⟩,
  ⟨"SBCD_Dy_Dx", 0x8100, 0xF1F8, gAll, rdOp fun op => .sbcdReg (regAt op 9) (regAt op 0)⟩,
  ⟨"SBCD_-_Ay__-_Ax", 0x8108, 0xF1F8, gAll, rdOp fun op => .sbcdMem (regAt op 9) (regAt op 0)⟩,
  ⟨"PACK", 0x8140, 0xF1F0, g20 fun _ => true, rdOp fun op => .pack (regAt op 9) (bitAt op 3) (regAt op 0)⟩,
  ⟨"UNPK", 0x8180, 0xF1F0, g20 fun _ => true, rdOp fun op => .unpk (regAt op 9) (bitAt op 3) (regAt op 0)⟩]

def rows9 : List Row := [
  ⟨"SUB__ea__Dn", 0x9000, 0xF100, gSizeEaNoAnB .all,
    rdSizedEa sizeSS fun op sz ea => .subToReg sz (regAt op 9) ea⟩,
  ⟨"SUB_Dn__ea", 0x9100, 0xF100, gSizeEa .memoryAlterable,
    rdSizedEa sizeSS fun op sz ea => .subToMem sz (regAt op 9) ea⟩,
  ⟨"SUBA", 0x90C0, 0xF0C0, gEa .all, rdSizedEa (sizeWL · 8) fun op sz ea => .suba sz (regAt op 9) ea⟩,
  ⟨"SUBX_Dy_Dx", 0x9100, 0xF138, gSize, rdOp fun op => .subxReg (sizeSS op) (regAt op 9) (regAt op 0)⟩,
  ⟨"SUBX_-_Ay__-_Ax", 0x9108, 0xF138, gSize, rdOp fun op => .subxMem (sizeSS op) (regAt op 9) (regAt op 0)⟩]

def rowsA : List Row := [
  ⟨"LINE-A", 0xA000, 0xF000, gAll, rdOp fun op => .lineA (BitVec.ofNat 12 op.toNat)⟩]

def rowsB : List Row := [
  ⟨"CMP", 0xB000, 0xF100, gSizeEaNoAnB .all, rdSizedEa sizeSS fun op sz ea => .cmp sz (regAt op 9) ea⟩,
  ⟨"CMPA", 0xB0C0, 0xF0C0, gEa .all, rdSizedEa (sizeWL · 8) fun op sz ea => .cmpa sz (regAt op 9) ea⟩,
  ⟨"EOR", 0xB100, 0xF100, gSizeEa .dataAlterable, rdSizedEa sizeSS fun op sz ea => .eor sz (regAt op 9) ea⟩,
  ⟨"CMPM", 0xB108, 0xF138, gSize, rdOp fun op => .cmpm (sizeSS op) (regAt op 9) (regAt op 0)⟩]

def rowsC : List Row := [
  ⟨"AND__ea__Dn", 0xC000, 0xF100, gSizeEa .data, rdSizedEa sizeSS fun op sz ea => .andToReg sz (regAt op 9) ea⟩,
  ⟨"AND_Dn__ea", 0xC100, 0xF100, gSizeEa .memoryAlterable,
    rdSizedEa sizeSS fun op sz ea => .andToMem sz (regAt op 9) ea⟩,
  ⟨"MULU.W", 0xC0C0, 0xF1C0, gEa .data, rdEa .w fun op ea => .mulu (regAt op 9) ea⟩,
  ⟨"MULS.W", 0xC1C0, 0xF1C0, gEa .data, rdEa .w fun op ea => .muls (regAt op 9) ea⟩,
  ⟨"ABCD_Dy_Dx", 0xC100, 0xF1F8, gAll, rdOp fun op => .abcdReg (regAt op 9) (regAt op 0)⟩,
  ⟨"ABCD_-_Ay__-_Ax", 0xC108, 0xF1F8, gAll, rdOp fun op => .abcdMem (regAt op 9) (regAt op 0)⟩,
  ⟨"EXG_Dx_Dy", 0xC140, 0xF1F8, gAll, rdOp fun op => .exgDD (regAt op 9) (regAt op 0)⟩,
  ⟨"EXG_Ax_Ay", 0xC148, 0xF1F8, gAll, rdOp fun op => .exgAA (regAt op 9) (regAt op 0)⟩,
  ⟨"EXG_Dx_Ay", 0xC188, 0xF1F8, gAll, rdOp fun op => .exgDA (regAt op 9) (regAt op 0)⟩]

def rowsD : List Row := [
  ⟨"ADD__ea__Dn", 0xD000, 0xF100, gSizeEaNoAnB .all,
    rdSizedEa sizeSS fun op sz ea => .addToReg sz (regAt op 9) ea⟩,
  ⟨"ADD_Dn__ea", 0xD100, 0xF100, gSizeEa .memoryAlterable,
    rdSizedEa sizeSS fun op sz ea => .addToMem sz (regAt op 9) ea⟩,
  ⟨"ADDA", 0xD0C0, 0xF0C0, gEa .all, rdSizedEa (sizeWL · 8) fun op sz ea => .adda sz (regAt op 9) ea⟩,
  ⟨"ADDX_Dy_Dx", 0xD100, 0xF138, gSize, rdOp fun op => .addxReg (sizeSS op) (regAt op 9) (regAt op 0)⟩,
  ⟨"ADDX_-_Ay__-_Ax", 0xD108, 0xF138, gSize, rdOp fun op => .addxMem (sizeSS op) (regAt op 9) (regAt op 0)⟩]

/-- The count of a register shift: bit 5 says register (R310). -/
def shiftCountOf (op : Half) : ShiftCount := if bitAt op 5 then .reg (regAt op 9) else .quick (regAt op 9)

/-- A register shift's operands (format SHREG, R114). -/
def rdShReg (k : Size → ShiftCount → RegNo → Instr) : Reader :=
  rdOp fun op => k (sizeSS op) (shiftCountOf op) (regAt op 0)

/-- A memory shift's operand (format SHMEM, R114). -/
def rdShMem (k : Ea → Instr) : Reader := rdEa .w fun _ ea => k ea

def rowsE : List Row := [
  ⟨"ASR__register", 0xE000, 0xF118, gSize, rdShReg .asrReg⟩,
  ⟨"ASL__register", 0xE100, 0xF118, gSize, rdShReg .aslReg⟩,
  ⟨"ASR__memory", 0xE0C0, 0xFFC0, gEa .memoryAlterable, rdShMem .asrMem⟩,
  ⟨"ASL__memory", 0xE1C0, 0xFFC0, gEa .memoryAlterable, rdShMem .aslMem⟩,
  ⟨"LSR__register", 0xE008, 0xF118, gSize, rdShReg .lsrReg⟩,
  ⟨"LSL__register", 0xE108, 0xF118, gSize, rdShReg .lslReg⟩,
  ⟨"LSR__memory", 0xE2C0, 0xFFC0, gEa .memoryAlterable, rdShMem .lsrMem⟩,
  ⟨"LSL__memory", 0xE3C0, 0xFFC0, gEa .memoryAlterable, rdShMem .lslMem⟩,
  ⟨"ROXR__register", 0xE010, 0xF118, gSize, rdShReg .roxrReg⟩,
  ⟨"ROXL__register", 0xE110, 0xF118, gSize, rdShReg .roxlReg⟩,
  ⟨"ROXR__memory", 0xE4C0, 0xFFC0, gEa .memoryAlterable, rdShMem .roxrMem⟩,
  ⟨"ROXL__memory", 0xE5C0, 0xFFC0, gEa .memoryAlterable, rdShMem .roxlMem⟩,
  ⟨"ROR__register", 0xE018, 0xF118, gSize, rdShReg .rorReg⟩,
  ⟨"ROL__register", 0xE118, 0xF118, gSize, rdShReg .rolReg⟩,
  ⟨"ROR__memory", 0xE6C0, 0xFFC0, gEa .memoryAlterable, rdShMem .rorMem⟩,
  ⟨"ROL__memory", 0xE7C0, 0xFFC0, gEa .memoryAlterable, rdShMem .rolMem⟩,
  ⟨"BFxxx", 0xE8C0, 0xF8C0, g20 fun _ => true, rdOp fun op => .bitField (regAt op 8) (eaFieldOf op)⟩]

def rowsF : List Row := [
  ⟨"LINE-F", 0xF000, 0xF000, gAll, rdOp fun op => .lineF (BitVec.ofNat 12 op.toNat)⟩]

/-- The rows of one line (R103: bits 15:12 are the operation group). -/
def rowsOfLine : Nat → List Row
  | 0 => rows0 ++ rows0Refused
  | 1 => rows1
  | 2 => rows2
  | 3 => rows3
  | 4 => rows4a ++ (rows4b ++ rows4Refused)
  | 5 => rows5
  | 6 => rows6
  | 7 => rows7
  | 8 => rows8
  | 9 => rows9
  | 10 => rowsA
  | 11 => rowsB
  | 12 => rowsC
  | 13 => rowsD
  | 14 => rowsE
  | _ => rowsF

/-- The row a word selects on a model, if any (R116: no word selects two). -/
def rowOf (m : Model) (op : Half) : Option Row := (rowsOfLine (field op 12 4)).find? (·.selects m op)

/-- Why no instruction is read: no row (R117), or the words end before the instruction does. -/
inductive DecodeError where
  | noRow
  | truncated
  deriving DecidableEq, Repr

/-- The decoder: the instruction at the head of a list of words, and the words after it (R116). -/
def decode (m : Model) : List Half → Except DecodeError (Instr × List Half)
  | [] => .error .truncated
  | op :: ws =>
    match rowOf m op with
    | none => .error .noRow
    | some r =>
      match r.read op ws with
      | none => .error .truncated
      | some x => .ok x

/-- Big-endian words of bytes (R75); a last odd byte is no word. -/
def wordsOfBytes : List Byte → List Half
  | hi :: lo :: bs => BitVec.ofNat 16 (hi.toNat * 256 + lo.toNat) :: wordsOfBytes bs
  | _ => []

/-- The decoder on bytes: total on any bytes. -/
def decodeBytes (m : Model) (bs : List Byte) : Except DecodeError (Instr × List Half) :=
  decode m (wordsOfBytes bs)

/-- The words of a table number: bits 15:0 are the first word, bits 31:16 the second, and so on, five words
in all (the longest instruction, R100), the bits above `nbits` being 0. -/
def tableWords (nbits w : Nat) : List Half :=
  let v := w % 2 ^ nbits
  [BitVec.ofNat 16 v, BitVec.ofNat 16 (v / 2 ^ 16), BitVec.ofNat 16 (v / 2 ^ 32), BitVec.ofNat 16 (v / 2 ^ 48),
    BitVec.ofNat 16 (v / 2 ^ 64)]

/-- The instruction the decoder reads from a table number. The model is mc68020, the one that has every row
of the table (R115, R120). -/
def decodeTableWord (nbits w : Nat) : Option Instr :=
  match decode .mc68020 (tableWords nbits w) with
  | .ok (i, _) => some i
  | .error _ => none

/-! ## The encoder, from the same tables of the spec -/

/-- The standard size field in bits 7:6 (R106). -/
def Size.ss : Size → Nat
  | .b => 0
  | .w => 64
  | .l => 128

/-- A one-bit size field at bit `i` (R106). -/
def Size.wl (i : Nat) : Size → Nat
  | .b => 0
  | .w => 0
  | .l => 2 ^ i

/-- An effective-address field in bits 5:0 (R107). -/
def EaField.bits (f : EaField) : Nat := f.mode.val * 8 + f.reg.val

/-- MOVE's destination field in bits 11:6 (R107). -/
def EaField.dstBits (f : EaField) : Nat := f.reg.val * 512 + f.mode.val * 64

/-- An immediate's words (R109); an ignored upper byte is written as 0. -/
def immWords (sz : Size) (v : Word) : List Half :=
  match sz with
  | .b => [loWord v]
  | .w => [loWord v]
  | .l => [hiWord v, loWord v]

/-- The extension words of an addressing mode (R107). -/
def Ea.words (sz : Size) : Ea → List Half
  | .dreg _ => []
  | .areg _ => []
  | .ind _ => []
  | .postinc _ => []
  | .predec _ => []
  | .disp _ d => [d]
  | .index _ x => [x.word]
  | .absW a => [a]
  | .absL a => [hiWord a, loWord a]
  | .pcDisp d => [d]
  | .pcIndex x => [x.word]
  | .imm v => immWords sz v

/-- A shift count's bits: `ccc` in bits 11:9 and `i` in bit 5 (R310). -/
def ShiftCount.bits : ShiftCount → Nat
  | .quick c => c.val * 512
  | .reg n => n.val * 512 + 32

/-- A word from a number. -/
def wordOf (n : Nat) : Half := BitVec.ofNat 16 n

/-- A byte as an extension word whose upper byte is 0. -/
def byteWord (b : Byte) : Half := b.setWidth 16

/-- `base`, with an effective address at a size, and its extension words after the instruction's own. -/
def encEa (base : Nat) (own : List Half) (sz : Size) (ea : Ea) : List Half :=
  wordOf (base + ea.field.bits) :: (own ++ ea.words sz)

/-- MOVE's words. -/
def encMove (base : Nat) (sz : Size) (src dst : Ea) : List Half :=
  wordOf (base + dst.field.dstBits + src.field.bits) :: (src.words sz ++ dst.words sz)

/-- A branch's words. -/
def encBranch (base : Nat) : BranchDisp → List Half
  | .short d => [wordOf (base + d.toNat)]
  | .word d => [wordOf base, d]

/-- The two-register forms (format XOP, EXG). -/
def encXY (base : Nat) (x y : RegNo) : List Half := [wordOf (base + x.val * 512 + y.val)]

/-- The words of an instruction. -/
def encode : Instr → List Half
  | .oriCcr imm => [0x003C, byteWord imm]
  | .oriSr imm => [0x007C, imm]
  | .ori sz imm ea => encEa (0x0000 + sz.ss) (immWords sz imm) sz ea
  | .andiCcr imm => [0x023C, byteWord imm]
  | .andiSr imm => [0x027C, imm]
  | .andi sz imm ea => encEa (0x0200 + sz.ss) (immWords sz imm) sz ea
  | .subi sz imm ea => encEa (0x0400 + sz.ss) (immWords sz imm) sz ea
  | .addi sz imm ea => encEa (0x0600 + sz.ss) (immWords sz imm) sz ea
  | .btstI bit ea => encEa 0x0800 [byteWord bit] .b ea
  | .bchgI bit ea => encEa 0x0840 [byteWord bit] .b ea
  | .bclrI bit ea => encEa 0x0880 [byteWord bit] .b ea
  | .bsetI bit ea => encEa 0x08C0 [byteWord bit] .b ea
  | .eoriCcr imm => [0x0A3C, byteWord imm]
  | .eoriSr imm => [0x0A7C, imm]
  | .eori sz imm ea => encEa (0x0A00 + sz.ss) (immWords sz imm) sz ea
  | .cmpi sz imm ea => encEa (0x0C00 + sz.ss) (immWords sz imm) sz ea
  | .moves sz toMem r ea => encEa (0x0E00 + sz.ss) [wordOf (r.bits + toMem.toNat * 2048)] sz ea
  | .btstD dn ea => encEa (0x0100 + dn.val * 512) [] .b ea
  | .bchgD dn ea => encEa (0x0140 + dn.val * 512) [] .b ea
  | .bclrD dn ea => encEa (0x0180 + dn.val * 512) [] .b ea
  | .bsetD dn ea => encEa (0x01C0 + dn.val * 512) [] .b ea
  | .movepLoadW dx ay d => encXY 0x0108 dx ay ++ [d]
  | .movepLoadL dx ay d => encXY 0x0148 dx ay ++ [d]
  | .movepStoreW dx ay d => encXY 0x0188 dx ay ++ [d]
  | .movepStoreL dx ay d => encXY 0x01C8 dx ay ++ [d]
  | .moveB src dst => encMove 0x1000 .b src dst
  | .moveL src dst => encMove 0x2000 .l src dst
  | .moveW src dst => encMove 0x3000 .w src dst
  | .moveaL an src => encEa (0x2040 + an.val * 512) [] .l src
  | .moveaW an src => encEa (0x3040 + an.val * 512) [] .w src
  | .negx sz ea => encEa (0x4000 + sz.ss) [] sz ea
  | .moveFromSr ea => encEa 0x40C0 [] .w ea
  | .chk dn ea => encEa (0x4180 + dn.val * 512) [] .w ea
  | .lea an ea => encEa (0x41C0 + an.val * 512) [] .l ea
  | .clr sz ea => encEa (0x4200 + sz.ss) [] sz ea
  | .moveFromCcr ea => encEa 0x42C0 [] .w ea
  | .neg sz ea => encEa (0x4400 + sz.ss) [] sz ea
  | .moveToCcr ea => encEa 0x44C0 [] .w ea
  | .notEa sz ea => encEa (0x4600 + sz.ss) [] sz ea
  | .moveToSr ea => encEa 0x46C0 [] .w ea
  | .nbcd ea => encEa 0x4800 [] .b ea
  | .swap dn => [wordOf (0x4840 + dn.val)]
  | .bkpt v => [wordOf (0x4848 + v.val)]
  | .pea ea => encEa 0x4840 [] .l ea
  | .extW dn => [wordOf (0x4880 + dn.val)]
  | .extL dn => [wordOf (0x48C0 + dn.val)]
  | .movemToMem sz mask ea => encEa (0x4880 + sz.wl 6) [mask] sz ea
  | .movemToPredec sz mask an => [wordOf (0x48A0 + sz.wl 6 + an.val), mask]
  | .tst sz ea => encEa (0x4A00 + sz.ss) [] sz ea
  | .tas ea => encEa 0x4AC0 [] .b ea
  | .illegal => [0x4AFC]
  | .movemFromMem sz mask ea => encEa (0x4C80 + sz.wl 6) [mask] sz ea
  | .movemFromPostinc sz mask an => [wordOf (0x4C98 + sz.wl 6 + an.val), mask]
  | .trap v => [wordOf (0x4E40 + v.val)]
  | .link an d => [wordOf (0x4E50 + an.val), d]
  | .unlk an => [wordOf (0x4E58 + an.val)]
  | .moveToUsp an => [wordOf (0x4E60 + an.val)]
  | .moveFromUsp an => [wordOf (0x4E68 + an.val)]
  | .reset => [0x4E70]
  | .nop => [0x4E71]
  | .stop imm => [0x4E72, imm]
  | .rte => [0x4E73]
  | .rtd d => [0x4E74, d]
  | .rts => [0x4E75]
  | .trapv => [0x4E76]
  | .rtr => [0x4E77]
  | .movecFrom r code => [0x4E7A, wordOf (r.bits + code.toNat)]
  | .movecTo r code => [0x4E7B, wordOf (r.bits + code.toNat)]
  | .jsr ea => encEa 0x4E80 [] .l ea
  | .jmp ea => encEa 0x4EC0 [] .l ea
  | .addq sz q ea => encEa (0x5000 + q.val * 512 + sz.ss) [] sz ea
  | .subq sz q ea => encEa (0x5100 + q.val * 512 + sz.ss) [] sz ea
  | .dbcc c dn d => [wordOf (0x50C8 + c.code * 256 + dn.val), d]
  | .scc c ea => encEa (0x50C0 + c.code * 256) [] .b ea
  | .bra d => encBranch 0x6000 d
  | .bsr d => encBranch 0x6100 d
  | .bcc c d => encBranch (0x6000 + c.code * 256) d
  | .moveq dn imm => [wordOf (0x7000 + dn.val * 512 + imm.toNat)]
  | .orToReg sz dn ea => encEa (0x8000 + dn.val * 512 + sz.ss) [] sz ea
  | .orToMem sz dn ea => encEa (0x8100 + dn.val * 512 + sz.ss) [] sz ea
  | .divu dn ea => encEa (0x80C0 + dn.val * 512) [] .w ea
  | .divs dn ea => encEa (0x81C0 + dn.val * 512) [] .w ea
  | .sbcdReg dx dy => encXY 0x8100 dx dy
  | .sbcdMem ax ay => encXY 0x8108 ax ay
  | .subToReg sz dn ea => encEa (0x9000 + dn.val * 512 + sz.ss) [] sz ea
  | .subToMem sz dn ea => encEa (0x9100 + dn.val * 512 + sz.ss) [] sz ea
  | .suba sz an ea => encEa (0x90C0 + an.val * 512 + sz.wl 8) [] sz ea
  | .subxReg sz dx dy => encXY (0x9100 + sz.ss) dx dy
  | .subxMem sz ax ay => encXY (0x9108 + sz.ss) ax ay
  | .lineA low => [wordOf (0xA000 + low.toNat)]
  | .cmp sz dn ea => encEa (0xB000 + dn.val * 512 + sz.ss) [] sz ea
  | .cmpa sz an ea => encEa (0xB0C0 + an.val * 512 + sz.wl 8) [] sz ea
  | .eor sz dn ea => encEa (0xB100 + dn.val * 512 + sz.ss) [] sz ea
  | .cmpm sz ax ay => encXY (0xB108 + sz.ss) ax ay
  | .andToReg sz dn ea => encEa (0xC000 + dn.val * 512 + sz.ss) [] sz ea
  | .andToMem sz dn ea => encEa (0xC100 + dn.val * 512 + sz.ss) [] sz ea
  | .mulu dn ea => encEa (0xC0C0 + dn.val * 512) [] .w ea
  | .muls dn ea => encEa (0xC1C0 + dn.val * 512) [] .w ea
  | .abcdReg dx dy => encXY 0xC100 dx dy
  | .abcdMem ax ay => encXY 0xC108 ax ay
  | .exgDD dx dy => encXY 0xC140 dx dy
  | .exgAA ax ay => encXY 0xC148 ax ay
  | .exgDA dx ay => encXY 0xC188 dx ay
  | .addToReg sz dn ea => encEa (0xD000 + dn.val * 512 + sz.ss) [] sz ea
  | .addToMem sz dn ea => encEa (0xD100 + dn.val * 512 + sz.ss) [] sz ea
  | .adda sz an ea => encEa (0xD0C0 + an.val * 512 + sz.wl 8) [] sz ea
  | .addxReg sz dx dy => encXY (0xD100 + sz.ss) dx dy
  | .addxMem sz ax ay => encXY (0xD108 + sz.ss) ax ay
  | .asrReg sz c dn => [wordOf (0xE000 + c.bits + sz.ss + dn.val)]
  | .aslReg sz c dn => [wordOf (0xE100 + c.bits + sz.ss + dn.val)]
  | .asrMem ea => encEa 0xE0C0 [] .w ea
  | .aslMem ea => encEa 0xE1C0 [] .w ea
  | .lsrReg sz c dn => [wordOf (0xE008 + c.bits + sz.ss + dn.val)]
  | .lslReg sz c dn => [wordOf (0xE108 + c.bits + sz.ss + dn.val)]
  | .lsrMem ea => encEa 0xE2C0 [] .w ea
  | .lslMem ea => encEa 0xE3C0 [] .w ea
  | .roxrReg sz c dn => [wordOf (0xE010 + c.bits + sz.ss + dn.val)]
  | .roxlReg sz c dn => [wordOf (0xE110 + c.bits + sz.ss + dn.val)]
  | .roxrMem ea => encEa 0xE4C0 [] .w ea
  | .roxlMem ea => encEa 0xE5C0 [] .w ea
  | .rorReg sz c dn => [wordOf (0xE018 + c.bits + sz.ss + dn.val)]
  | .rolReg sz c dn => [wordOf (0xE118 + c.bits + sz.ss + dn.val)]
  | .rorMem ea => encEa 0xE6C0 [] .w ea
  | .rolMem ea => encEa 0xE7C0 [] .w ea
  | .lineF low => [wordOf (0xF000 + low.toNat)]
  | .chk2Cmp2 ss ea => [wordOf (0x00C0 + ss.val * 512 + ea.bits)]
  | .cas ss ea => [wordOf (0x08C0 + ss.val * 512 + ea.bits)]
  | .rtm isA rn => [wordOf (0x06C0 + isA.toNat * 8 + rn.val)]
  | .callm ea => [wordOf (0x06C0 + ea.bits)]
  | .chkL dn ea => [wordOf (0x4100 + dn.val * 512 + ea.bits)]
  | .linkL an => [wordOf (0x4808 + an.val)]
  | .extbL dn => [wordOf (0x49C0 + dn.val)]
  | .mulL ea => [wordOf (0x4C00 + ea.bits)]
  | .divL ea => [wordOf (0x4C40 + ea.bits)]
  | .trapcc c op => [wordOf (0x50F8 + c.code * 256 + op.val)]
  | .pack y mem x => [wordOf (0x8140 + y.val * 512 + mem.toNat * 8 + x.val)]
  | .unpk y mem x => [wordOf (0x8180 + y.val * 512 + mem.toNat * 8 + x.val)]
  | .bitField op ea => [wordOf (0xE8C0 + op.val * 256 + ea.bits)]
  | .tst20 sz ea => [wordOf (0x4A00 + sz.ss + ea.bits)]
  | .cmpi20 sz ea => [wordOf (0x0C00 + sz.ss + ea.bits)]
  | .bccL c => [wordOf (0x60FF + c.code * 256)]

/-- An instruction's length in bytes (R100, R102). -/
def Instr.byteLength (i : Instr) : Nat := 2 * (encode i).length

end Sys2Proof
end

