-- ==== Sys2Proof/Machine/State.lean ====
section
/-! DEFINITION. The Processor State (10_state.md) with the memory behind the core and the parameters of R7,
as plain data, and the state right after reset (R51, R494). -/

namespace Sys2Proof.Machine

/-- The run condition (R47). -/
inductive RunCondition where
  | startup | running | halted | stopped | finished
  deriving DecidableEq, Repr

/-- The Operation Results other than `Ok` (R450). Each is delivered as an exception (R458), so it is part of
a next state and no fault of the model. -/
inductive Exc where
  | busError
  | addressError
  | illegalInstruction
  | privilegeViolation
  | chkException
  | divisionByZero
  | overflowTrap
  | formatError
  | trap (n : Fin 16)
  | lineAEmulator
  | lineFEmulator
  deriving DecidableEq, Repr

/-- Where an Operation Result arose (R457). -/
inductive Origin where
  | execute | prefetch
  deriving DecidableEq, Repr

/-- The reasons the machine stops with a fault: none. Every fault the spec names is an exception that the core
delivers (R450, R458), and a failure of the delivery is the run condition `halted` (R461): both are next
states. Safe: nothing ends a run by a fault. -/
inductive Fault where
  deriving DecidableEq, Repr

/-- The reasons the model gives no meaning. Each is safe: nothing can be proved of the step. -/
inductive Refusal where
  /-- An instruction without a meaning yet; raised by no arm of exec. Safe. -/
  | notModelled (mnemonic : String)
  /-- Raised by the step when T1 or T0 is set at its start (R131: "A step that begins with SR.T1 = 1 or
  SR.T0 = 1 is refused"). Safe. -/
  | trace
  /-- Raised on mc68020 by a pattern that only the MC68020 has (R120); the name is the pattern's mnemonic. Safe. -/
  | mc68020Only (mnemonic : String)
  /-- Raised on mc68020 by a brief extension word with a scale or with bit 8 set (R108, R158,
  "68020 extension word"). Safe. -/
  | extensionWord68020
  deriving DecidableEq, Repr

/-- Bytes by key, keys strictly rising, no entry equal to 0 (what an unlisted byte reads as, log entry 3).
The key of a byte is `bank * 2^32 + address` (log entry 2). -/
abbrev Memory := List Host.Cell

/-- The Processor State. -/
structure State where
  /-- The parameters (R7); no step changes them. -/
  cfg : Params
  /-- D0 to D7 (R30). -/
  d : Vector Word 8
  /-- A0 to A6 (R31); A7 is the active stack pointer (R33). -/
  a : Vector Word 7
  /-- User stack pointer (R32). -/
  usp : Word
  /-- Supervisor (interrupt) stack pointer, also SSP (R32). -/
  isp : Word
  /-- Master stack pointer of mc68020 (R32). -/
  msp : Word
  /-- Program counter (R35). -/
  pc : Word
  /-- Opcode register: the prefetched word (R36). -/
  opcode : Half
  /-- Status register (R38). -/
  sr : Half
  /-- Vector base register (R44). -/
  vbr : Word
  /-- Source function code (R44). -/
  sfc : FC
  /-- Destination function code (R44). -/
  dfc : FC
  /-- Cache control register of mc68020 (R44). -/
  cacr : Word
  /-- Cache address register of mc68020 (R44). -/
  caar : Word
  /-- Run condition (R47). -/
  run : RunCondition
  /-- Retired-instruction counter (R48). -/
  icount : Nat
  /-- The bytes behind the Memory Interface (R70, R76). -/
  mem : Memory
  /-- The model's own: the number of free values drawn so far (R503; log entry 7). -/
  draws : Nat
  deriving DecidableEq, Repr

/-- The parameters of the reset state (log entry 1): mc68010, the one model that runs every row of the opcode
table; plain memory (R76); no breakpoint callback; the defaults of R7 for the two flag parameters. -/
def Params.default : Params :=
  { model := .mc68010, mem := MemMap.plain, bkptPresent := false, undefinedFlags := .unchanged
    divOverflow := .unchanged }

/-- The machine right after a successful reset (R51, R494) of empty memory, which reads 0 everywhere: so the
two reset vectors and the prefetched word are 0. `Laws/Reset.lean` proves it is what the reset procedure gives. -/
def State.reset : State :=
  { cfg := Params.default
    d := Vector.replicate 8 0
    a := Vector.replicate 7 0
    usp := 0
    isp := 0
    msp := 0
    pc := 0
    opcode := 0
    sr := 0x2700
    vbr := 0
    sfc := 0
    dfc := 0
    cacr := 0
    caar := 0
    run := .running
    icount := 0
    mem := []
    draws := 0 }

end Sys2Proof.Machine
end

