-- ==== Sys2Proof/Machine/Ops.lean ====
section
/-! DEFINITION. The named operations over registers, the status register and memory (10_state.md,
20_memory.md), instruction fetch (R104, R105), taking an exception (R458), the frame of one instruction cycle
(R130), the free values a faulting access leaves (R135), and the reset procedure (R494). -/

namespace Sys2Proof.Machine

/-! ## Status register (R38 to R41) -/

/-- Write a 16-bit status word: `set_SR` (R40). -/
def State.setSR (s : State) (v : Half) : State := { s with sr := v &&& s.cfg.model.srMask }

/-- `get_CCR`, as a byte (R41). -/
def State.getCCR (s : State) : Byte := s.sr.setWidth 8

/-- `set_CCR`: bits 4:0 of the SR; the rest is unchanged (R41). -/
def State.setCCR (s : State) (v : Byte) : State :=
  { s with sr := (s.sr &&& 0xFFE0#16) ||| (v.setWidth 16 &&& 0x001F#16) }

/-- The five flags (R38, R42). -/
structure Ccr where
  x : Bool
  n : Bool
  z : Bool
  v : Bool
  c : Bool
  deriving DecidableEq, Repr

/-- The flags as the CCR byte. -/
def Ccr.byte (f : Ccr) : Byte :=
  BitVec.ofNat 8 (f.x.toNat * 16 + f.n.toNat * 8 + f.z.toNat * 4 + f.v.toNat * 2 + f.c.toNat)

/-- The flags the status register holds. -/
def State.flags (s : State) : Ccr :=
  { x := s.sr.getLsbD 4, n := s.sr.getLsbD 3, z := s.sr.getLsbD 2, v := s.sr.getLsbD 1, c := s.sr.getLsbD 0 }

/-- Write the five flags. -/
def State.setFlags (s : State) (f : Ccr) : State := s.setCCR f.byte

/-- Supervisor state: SR bit 13 (R38). -/
def State.supervisor (s : State) : Bool := s.sr.getLsbD 13

/-- SR bit 12, the master bit of mc68020 (R38). -/
def State.master (s : State) : Bool := s.sr.getLsbD 12

/-- A trace bit is set: SR bit 15 or 14 (R38, R131). -/
def State.traced (s : State) : Bool := s.sr.getLsbD 15 || s.sr.getLsbD 14

/-! ## Registers (R30 to R34) -/

/-- The physical stack pointers (R32). -/
inductive StackReg where
  | usp | isp | msp
  deriving DecidableEq, Repr

/-- The stack pointer A7 names (R33). -/
def State.activeStack (s : State) : StackReg :=
  if s.supervisor then (if s.cfg.model.is20 && s.master then .msp else .isp) else .usp

/-- Read a data register. -/
def State.getD (s : State) (n : RegNo) : Word := s.d[n]

/-- Write all 32 bits of a data register (R13). -/
def State.setD (s : State) (n : RegNo) (v : Word) : State := { s with d := s.d.set n v }

/-- Read A7 (R33). -/
def State.getSP (s : State) : Word :=
  match s.activeStack with
  | .usp => s.usp
  | .isp => s.isp
  | .msp => s.msp

/-- Write A7 (R33). -/
def State.setSP (s : State) (v : Word) : State :=
  match s.activeStack with
  | .usp => { s with usp := v }
  | .isp => { s with isp := v }
  | .msp => { s with msp := v }

/-- Read an address register; register 7 is the active stack pointer (R31, R33). -/
def State.getA (s : State) (n : RegNo) : Word := if h : n.val < 7 then s.a[n.val] else s.getSP

/-- Write all 32 bits of an address register (R31). -/
def State.setA (s : State) (n : RegNo) (v : Word) : State :=
  if h : n.val < 7 then { s with a := s.a.set n.val v } else s.setSP v

end Sys2Proof.Machine

namespace Sys2Proof

/-- The low `w(sz)` bits of a value, zero-extended: `trunc_sz` (R11). -/
def Size.trunc (sz : Size) (v : Word) : Word :=
  match sz with
  | .b => v &&& 0x000000FF#32
  | .w => v &&& 0x0000FFFF#32
  | .l => v

/-- A value sign-extended from its size to 32 bits: `sext_32` (R12). -/
def Size.sext (sz : Size) (v : Word) : Word :=
  match sz with
  | .b => (v.setWidth 8).signExtend 32
  | .w => (v.setWidth 16).signExtend 32
  | .l => v

end Sys2Proof

namespace Sys2Proof.Machine

/-- `sext_32` of a 16-bit word (R12). -/
def sext16 (v : Half) : Word := v.signExtend 32

/-- `sext_32` of a byte (R12). -/
def sext8 (v : Byte) : Word := v.signExtend 32

end Sys2Proof.Machine

namespace Sys2Proof

/-- Replace the low `w(sz)` bits of a register and keep the rest: `D[n].sz <- v` (R13). -/
def Size.merge (sz : Size) (old v : Word) : Word :=
  match sz with
  | .b => (old &&& 0xFFFFFF00#32) ||| (v &&& 0x000000FF#32)
  | .w => (old &&& 0xFFFF0000#32) ||| (v &&& 0x0000FFFF#32)
  | .l => v

end Sys2Proof

namespace Sys2Proof.Machine

/-- `D[n].sz <- v` (R13). -/
def State.setDSized (s : State) (sz : Size) (n : RegNo) (v : Word) : State := s.setD n (sz.merge (s.getD n) v)

/-- `VBR_EFF` (R46). -/
def State.vbrEff (s : State) : Word := if s.cfg.model.atLeast10 then s.vbr else 0

/-! ## Control registers (R44, R45) -/

/-- The control registers of R44. -/
inductive ControlReg where
  | sfc | dfc | cacr | usp | vbr | caar | msp | isp
  deriving DecidableEq, Repr

/-- The register of a MOVEC code (R44). -/
def controlRegOf (code : BitVec 12) : Option ControlReg :=
  match code.toNat with
  | 0x000 => some .sfc
  | 0x001 => some .dfc
  | 0x002 => some .cacr
  | 0x800 => some .usp
  | 0x801 => some .vbr
  | 0x802 => some .caar
  | 0x803 => some .msp
  | 0x804 => some .isp
  | _ => none

/-- The models a control register exists on (R44). -/
def ControlReg.existsOn (r : ControlReg) (m : Model) : Bool :=
  match r with
  | .sfc => m.atLeast10
  | .dfc => m.atLeast10
  | .usp => m.atLeast10
  | .vbr => m.atLeast10
  | .cacr => m.is20
  | .caar => m.is20
  | .msp => m.is20
  | .isp => m.is20

/-- `CRRead` (R45). -/
def State.readControl (s : State) (r : ControlReg) : Word :=
  match r with
  | .sfc => s.sfc.setWidth 32
  | .dfc => s.dfc.setWidth 32
  | .cacr => s.cacr
  | .usp => s.usp
  | .vbr => s.vbr
  | .caar => s.caar
  | .msp => s.msp
  | .isp => s.isp

/-- `CRWrite` (R45): SFC and DFC keep bits 2:0. -/
def State.writeControl (s : State) (r : ControlReg) (v : Word) : State :=
  match r with
  | .sfc => { s with sfc := v.setWidth 3 }
  | .dfc => { s with dfc := v.setWidth 3 }
  | .cacr => { s with cacr := v }
  | .usp => { s with usp := v }
  | .vbr => { s with vbr := v }
  | .caar => { s with caar := v }
  | .msp => { s with msp := v }
  | .isp => { s with isp := v }

/-! ## Memory as bytes -/

/-- The byte at a key; an unlisted key reads 0 (log entry 3). -/
def Memory.read : Memory → Nat → Byte
  | [], _ => 0
  | (k', b) :: m, k => if k = k' then b else Memory.read m k

/-- Write a byte, keeping the canonical form: writing 0 removes the entry. -/
def Memory.write : Memory → Nat → Byte → Memory
  | [], k, b => if b = 0 then [] else [(k, b)]
  | (k', b') :: m, k, b =>
    if k < k' then (if b = 0 then (k', b') :: m else (k, b) :: (k', b') :: m)
    else if k = k' then (if b = 0 then m else (k, b) :: m)
    else (k', b') :: Memory.write m k b

/-- The canonical form: keys strictly rising, no entry equal to what an unlisted key reads as. -/
abbrev Memory.wf (m : Memory) : Prop := m.Pairwise (fun x y => x.1 < y.1) ∧ ∀ x ∈ m, x.2 ≠ 0

end Sys2Proof.Machine

namespace Sys2Proof

/-- The key of a byte of a function-code space: its bank and its address (R79, log entry 2). -/
def MemMap.key (mm : MemMap) (fc : FC) (a : Word) : Nat :=
  (mm.bank[fc.toNat]'(fc.isLt)).val * 2 ^ 32 + a.toNat

/-- A hole answers `ok = false` for this access to this byte (R70, R84). -/
def Hole.denies (h : Hole) (it : Intent) (fc : FC) (a : Word) : Bool :=
  (match it with
    | .read => h.denyRead
    | .write => h.denyWrite) &&
  (match h.fc with
    | none => true
    | some f => decide (f = fc)) &&
  decide (h.lo.toNat ≤ a.toNat ∧ a.toNat ≤ h.hi.toNat)

/-- A window covers a byte. -/
def Window.covers (w : Window) (fc : FC) (a : Word) : Bool :=
  (match w.fc with
    | none => true
    | some f => decide (f = fc)) &&
  decide (w.lo.toNat ≤ a.toNat ∧ a.toNat ≤ w.hi.toNat)

/-- One of the windows covers a byte of the access. -/
def touches (ws : List Window) (fc : FC) (a : Word) (n : Nat) : Bool :=
  (List.range n).any fun k => ws.any fun w => w.covers fc (a + BitVec.ofNat 32 k)

/-- The host accepts the access to one byte. -/
def MemMap.byteOk (mm : MemMap) (it : Intent) (fc : FC) (a : Word) : Bool :=
  !(mm.holes.any fun h => h.denies it fc a)

/-- How the host answers a call (R70): `own`, as it likes; `refused`, with `ok = false`; `ignored`, a write that
succeeds and changes nothing; `served`, from the bytes or to them. -/
inductive Answer where
  | own | refused | ignored | served
  deriving DecidableEq, Repr

/-- The answer to an access of `n` bytes at `a` (R70): the host's own where a byte of it is; refused where one byte
is, or where the host's policy refuses an access across 0xFFFFFFFF (R77). Log entries 2 and 5. -/
def MemMap.answer (mm : MemMap) (it : Intent) (fc : FC) (a : Word) (n : Nat) : Answer :=
  if touches mm.own fc a n then .own
  else if ((List.range n).all fun k => mm.byteOk it fc (a + BitVec.ofNat 32 k)) &&
      (match mm.top with
        | .wrap => true
        | .fail => decide (a.toNat + n ≤ 2 ^ 32)) then
    (if it = .write ∧ touches mm.rom fc a n = true then .ignored else .served)
  else .refused

/-- The access succeeds as an access to plain memory (R76). -/
def MemMap.accepts (mm : MemMap) (it : Intent) (fc : FC) (a : Word) (n : Nat) : Bool :=
  decide (mm.answer it fc a n = .served)

end Sys2Proof

namespace Sys2Proof.Machine

/-- The byte at an address of a space. -/
def State.byteAt (s : State) (fc : FC) (a : Word) : Byte := s.mem.read (s.cfg.mem.key fc a)

/-- Store a byte at an address of a space. -/
def State.putByte (s : State) (fc : FC) (a : Word) (b : Byte) : State :=
  { s with mem := s.mem.write (s.cfg.mem.key fc a) b }

/-- The big-endian value of `n` bytes at `a` (R75), zero-extended. -/
def State.bytesAt (s : State) (fc : FC) (a : Word) : Nat → Word
  | 0 => 0
  | n + 1 => ((s.byteAt fc a).setWidth 32 <<< (8 * n)) ||| s.bytesAt fc (a + 1) n

/-- Store the low `n` bytes of a value at `a`, big-endian (R75). -/
def State.putBytes (s : State) (fc : FC) (a : Word) (v : Word) : Nat → State
  | 0 => s
  | n + 1 => (s.putByte fc a ((v >>> (8 * n)).setWidth 8)).putBytes fc (a + 1) v n

/-- The low `n` bytes of a value. -/
def lowBytes (n : Nat) (v : Word) : Word := BitVec.ofNat 32 (v.toNat % 2 ^ (8 * n))

/-- The host's own answer to the next call (R70, R83). -/
def State.reply (s : State) (it : Intent) (fc : FC) (a : Word) (n : Nat) (v : Word) : HostReply :=
  Config.hostReply s.draws { intent := it, fc := fc, addr := a, bytes := n, value := lowBytes n v }

/-- The state after a call, apart from the bytes it stores: a call that the host answers on its own is counted, so
that the same call may be answered otherwise the next time (R83: "Accesses are not assumed to be idempotent"). -/
def State.called (s : State) (fc : FC) (a : Word) (n : Nat) : State :=
  if touches s.cfg.mem.own fc a n then { s with draws := s.draws + 1 } else s

/-- `MEM.get_n(a, fc)`: the value, or a failure (R70). -/
def State.memGet (s : State) (fc : FC) (a : Word) (n : Nat) : Option Word :=
  match s.cfg.mem.answer .read fc a n with
  | .own => if (s.reply .read fc a n 0).ok then some (lowBytes n (s.reply .read fc a n 0).value) else none
  | .refused => none
  | .ignored => none
  | .served => some (s.bytesAt fc a n)

/-- `MEM.put_n(a, v, fc)`: the state after it, or a failure (R70). -/
def State.memPut (s : State) (fc : FC) (a : Word) (n : Nat) (v : Word) : Option State :=
  match s.cfg.mem.answer .write fc a n with
  | .own => if (s.reply .write fc a n v).ok then some (s.called fc a n) else none
  | .refused => none
  | .ignored => some s
  | .served => some (s.putBytes fc a v n)

/-- An odd address. -/
def odd (a : Word) : Bool := a.getLsbD 0

/-! ## Function codes (R79, R80) -/

/-- `ProgFC()`. -/
def State.progFC (s : State) : FC := if s.supervisor then 6 else 2

/-- `DataFC()`. -/
def State.dataFC (s : State) : FC := if s.supervisor then 5 else 1

/-! ## Free values (R135, R193, R461) -/

/-- What an instruction's rule would write, and a faulting access leaves unspecified (R135 (a), D23): a data
register, an address register, bytes of memory, the program counter, a control register, or bits of the CCR
(a mask: X = 16, N = 8, Z = 4, V = 2, C = 1). -/
inductive Target where
  | d (n : RegNo)
  | a (n : RegNo)
  | mem (fc : FC) (addr : Word) (n : Nat)
  | pc
  | control (r : ControlReg)
  | ccr (mask : Byte)
  deriving DecidableEq, Repr

/-- Store `n` free bytes at `a`. -/
def State.drawBytes (s : State) (fc : FC) (a : Word) : Nat → State
  | 0 => s
  | n + 1 => ({ s.putByte fc a (Config.freeByte s.draws) with draws := s.draws + 1 }).drawBytes fc (a + 1) n

/-- Give a target a free value. -/
def State.drawTarget (s : State) : Target → State
  | .d n => { s.setD n (Config.freeWord s.draws) with draws := s.draws + 1 }
  | .a n => { s.setA n (Config.freeWord s.draws) with draws := s.draws + 1 }
  | .mem fc addr n => s.drawBytes fc addr n
  | .pc => { s with pc := Config.freeWord s.draws, draws := s.draws + 1 }
  | .control r => { s.writeControl r (Config.freeWord s.draws) with draws := s.draws + 1 }
  | .ccr mask =>
    { s.setCCR ((s.getCCR &&& ~~~mask) ||| (Config.freeCcr s.draws &&& mask)) with draws := s.draws + 1 }

/-- Give the CCR a free value (R135 (a)); the system byte is unchanged. -/
def State.drawCCR (s : State) : State := { s.setCCR (Config.freeCcr s.draws) with draws := s.draws + 1 }

/-- What a failed extension-word fetch leaves: every target the instruction's rule would write holds a free value,
the flags among them only where it writes flags (D23, R463; R135 (a) speaks of operand accesses; log entry 8). -/
def State.fetchLeaves (s : State) (ts : List Target) : State := ts.foldl State.drawTarget s

/-- What a failed operand access leaves: every target the instruction's rule would write, and the whole CCR, hold
free values (R135 (a): "and the CCR"; R219, R463; log entry 8). -/
def State.faultLeaves (s : State) (ts : List Target) : State := (s.fetchLeaves ts).drawCCR

/-! ## Operations: a value and a state, or the reason the instruction ends -/

/-- Why an instruction ends before its rule does: an Operation Result (R15), told apart where it is that of a
failed extension-word fetch (R135, D23), or a refusal. -/
inductive Stop where
  | exc (e : Exc)
  | fetch (e : Exc)
  | refuse (r : Refusal)
  deriving DecidableEq, Repr

/-- A step of an instruction's rule: the pseudocode of the spec, in order (R134). The state at a `raise`
holds the writes before it (R15). -/
abbrev Op := EStateM Stop State

/-- `raise E` (R15). -/
def raise {α : Type} (e : Exc) : Op α := throw (.exc e)

/-- `REFUSE(name)` (R130). -/
def refuse {α : Type} (r : Refusal) : Op α := throw (.refuse r)

/-- `MemRead_fc(fc, a, n)` (R71). -/
def memReadFC (fc : FC) (a : Word) (n : Nat) : Op Word := fun s =>
  if n ≠ 1 ∧ odd a then .error (.exc .addressError) s
  else
    match s.memGet fc a n with
    | none => .error (.exc .busError) (s.called fc a n)
    | some v => .ok v (s.called fc a n)

/-- `MemWrite_fc(fc, a, n, v)` (R72). -/
def memWriteFC (fc : FC) (a : Word) (n : Nat) (v : Word) : Op Unit := fun s =>
  if n ≠ 1 ∧ odd a then .error (.exc .addressError) s
  else
    match s.memPut fc a n v with
    | none => .error (.exc .busError) (s.called fc a n)
    | some s' => .ok () s'

/-- `MemRead(a, n)` in the data space of the current privilege level (R14). -/
def memRead (a : Word) (n : Nat) : Op Word := fun s => memReadFC s.dataFC a n s

/-- `MemWrite(a, n, v)` (R14). -/
def memWrite (a : Word) (n : Nat) (v : Word) : Op Unit := fun s => memWriteFC s.dataFC a n v s

/-! ## Instruction fetch (R78, R104, R105) -/

/-- `FetchWordAt(a)` (R78). -/
def State.fetchWordAt (s : State) (a : Word) : Except Exc Half :=
  if odd a then .error .addressError
  else
    match s.memGet s.progFC a 2 with
    | none => .error .busError
    | some v => .ok (v.setWidth 16)

/-- The state after the call of a fetch at `a`: no call is made at an odd address (R78). -/
def State.afterFetch (s : State) (a : Word) : State := if odd a then s else s.called s.progFC a 2

/-- `FetchWord()` (R104): the one call of this word. Its value stands in the instruction already
(`State.instrWords`), so the rule needs its success and the advance of `pc`. Where it fails, the word shown to the
decoder in its place is a free value, which is counted here (log entry 9). -/
def fetchExt : Op Unit := fun s =>
  match s.fetchWordAt s.pc with
  | .ok _ => .ok () { s.afterFetch s.pc with pc := s.pc + 2 }
  | .error e => .error (.fetch e) { s.afterFetch s.pc with draws := (s.afterFetch s.pc).draws + 1 }

/-- Fetch `n` extension words. -/
def takeExt : Nat → Op Unit
  | 0 => pure ()
  | n + 1 => do
    fetchExt
    takeExt n

/-! ## Gates (R117, R119) -/

/-- A privileged row with S = 0 raises `Privilege_violation` before any extension word is fetched (R119). -/
def privileged : Op Unit := fun s => if s.supervisor then .ok () s else .error (.exc .privilegeViolation) s

/-- A row that `MODEL` has from mc68010 on: on mc68000 the word has no row and is illegal (R117). -/
def from68010 : Op Unit := fun s =>
  if s.cfg.model.atLeast10 then .ok () s else .error (.exc .illegalInstruction) s

/-! ## Taking an exception (60_exceptions.md) -/

/-- `VectorOf(result)` (R453). -/
def Exc.vector : Exc → Nat
  | .busError => 2
  | .addressError => 3
  | .illegalInstruction => 4
  | .divisionByZero => 5
  | .chkException => 6
  | .overflowTrap => 7
  | .privilegeViolation => 8
  | .lineAEmulator => 10
  | .lineFEmulator => 11
  | .formatError => 14
  | .trap n => 32 + n.val

/-- `FormatOf(result)`: 2 on mc68020 for CHK, TRAPV and divide by zero, else 0 (R456). -/
def Exc.format (e : Exc) (m : Model) : Nat :=
  match e with
  | .chkException => if m.is20 then 2 else 0
  | .overflowTrap => if m.is20 then 2 else 0
  | .divisionByZero => if m.is20 then 2 else 0
  | _ => 0

/-- The size of a frame of a format: 8 bytes or 12 (R454, R455). -/
def frameBytes (fmt : Nat) : Nat := if fmt = 0 then 8 else 12

/-- `StackedPC(result, origin, instr_addr)` (R457). -/
def Exc.stackedPC (e : Exc) (o : Origin) (instrAddr pc : Word) : Word :=
  match e with
  | .trap _ => pc
  | .overflowTrap => pc
  | .chkException => pc
  | .divisionByZero => pc
  | .busError => if o = .prefetch then pc else instrAddr
  | .addressError => if o = .prefetch then pc else instrAddr
  | _ => instrAddr

/-- `Halt()` (R461). -/
def State.halt (s : State) : State := { s with run := .halted }

/-- The frame's format word: format in bits 15:12, vector offset in bits 11:0 (R454, R455). -/
def formatWord (fmt vec : Nat) : Word := BitVec.ofNat 32 (fmt * 4096 + 4 * vec)

/-- Write values, each with its address and width, in supervisor data space (R459) until one write fails: whether all
succeeded, and the state after the last call. -/
def State.putFields (s : State) : List (Word × Nat × Word) → Bool × State
  | [] => (true, s)
  | (a, n, v) :: fs =>
    match s.memPut 5 a n v with
    | none => (false, s.called 5 a n)
    | some t => t.putFields fs

/-- The frame at `a`, by ascending addresses (R454, R455). -/
def frameFields (a : Word) (old : Half) (spc : Word) (fmt vec : Nat) (instrAddr : Word) : List (Word × Nat × Word) :=
  [(a, 2, old.setWidth 32), (a + 2, 4, spc), (a + 6, 2, formatWord fmt vec)] ++
    (if fmt = 2 then [(a + 8, 4, instrAddr)] else [])

/-- Steps (e) and (f) of the delivery: the vector, and the prefetch at the handler (R458, R460). -/
def State.enterHandler (s : State) (vec : Nat) : State :=
  let va := s.vbrEff + BitVec.ofNat 32 (4 * vec)
  if odd va then s.halt
  else
    match s.memGet 5 va 4 with
    | none => (s.called 5 va 4).halt
    | some v =>
      let s' := { s.called 5 va 4 with pc := v }
      match s'.fetchWordAt v with
      | .ok w => { s'.afterFetch v with opcode := w }
      | .error _ => (s'.afterFetch v).halt

/-- `Deliver(result, origin, instr_addr)` (R458): the one operation by which every exception is taken. -/
def deliver (e : Exc) (o : Origin) (instrAddr : Word) (s : State) : State :=
  let old := s.sr
  let fmt := e.format s.cfg.model
  let s1 := s.setSR ((old ||| 0x2000#16) &&& ~~~0xC000#16)
  let sp := s1.getSP
  if odd sp then s1.halt
  else
    let a := sp - BitVec.ofNat 32 (frameBytes fmt)
    match s1.putFields (frameFields a old (e.stackedPC o instrAddr s.pc) fmt e.vector instrAddr) with
    | (false, s2) => (s2.drawBytes 5 a (frameBytes fmt)).halt
    | (true, s2) => (s2.setSP a).enterHandler e.vector

/-! ## The instruction cycle (R130) -/

/-- An outcome of the model. -/
abbrev Outcome := Host.Outcome State Fault Refusal

/-- The end-of-step prefetch (R105, R130): its failure is delivered with origin `prefetch`. -/
def endPrefetch (instrAddr : Word) (s : State) : State :=
  match s.fetchWordAt s.pc with
  | .ok w => { s.afterFetch s.pc with opcode := w }
  | .error e => deliver e .prefetch instrAddr (s.afterFetch s.pc)

/-- The state an instruction's rule starts in: `pc` follows the opcode word (R130). -/
def State.started (s : State) : State := { s with pc := s.pc + 2 }

/-- `icount <- icount + 1` (R130). -/
def State.counted (s : State) : State := { s with icount := s.icount + 1 }

/-- The state in which the failure of an extension-word fetch is delivered: the starting state with free values for
what the rule would write (D23). `pc` and the count of free values are those at the `raise`. -/
def fetchState (ts : List Target) (s s1 : State) : State := ({ s with pc := s1.pc, draws := s1.draws }).fetchLeaves ts

/-- The state in which any other result `e` of a rule is delivered: the state at the `raise`; but after
`Bus_error` and `Address_error` the starting state with free values for what the rule would write (R135).
`pc` and the count of free values are those at the `raise`. -/
def excState (e : Exc) (ts : List Target) (s s1 : State) : State :=
  match e with
  | .busError => ({ s with pc := s1.pc, draws := s1.draws }).faultLeaves ts
  | .addressError => ({ s with pc := s1.pc, draws := s1.draws }).faultLeaves ts
  | _ => s1

/-- What follows a rule that ended `Ok`: the count, and the prefetch if the core still runs and no word was
substituted (R130). -/
def finish (prefetches : Bool) (instrAddr : Word) (s : State) : State :=
  if prefetches ∧ s.run = .running then endPrefetch instrAddr s.counted else s.counted

/-- One instruction (R130): from the state whose `pc` is the address of the opcode word, run the rule, then
prefetch or deliver. `ts` is what the rule would write, for R135 (a) and D23. -/
def cycleWith (prefetches : Bool) (ts : List Target) (rule : Op Unit) (s : State) : Outcome :=
  match rule s.started with
  | .ok _ s1 => .next (finish prefetches s.pc s1)
  | .error (.refuse r) _ => .refused r
  | .error (.fetch e) s1 => .next (deliver e .execute s.pc (fetchState ts s s1).counted)
  | .error (.exc e) s1 => .next (deliver e .execute s.pc (excState e ts s s1).counted)

/-- An instruction whose step ends with the prefetch: every one but a substituted BKPT. -/
def cycle (ts : List Target) (rule : Op Unit) (s : State) : Outcome := cycleWith true ts rule s

/-! ## Reading and changing the state in a rule -/

/-- Read a data register, all 32 bits. -/
def readD (n : RegNo) : Op Word := fun s => .ok (s.getD n) s

/-- Write a data register, all 32 bits. -/
def writeD (n : RegNo) (v : Word) : Op Unit := fun s => .ok () (s.setD n v)

/-- Read the low bits of a data register. -/
def readDSized (sz : Size) (n : RegNo) : Op Word := fun s => .ok (sz.trunc (s.getD n)) s

/-- Write the low bits of a data register (R13). -/
def writeDSized (sz : Size) (n : RegNo) (v : Word) : Op Unit := fun s => .ok () (s.setDSized sz n v)

/-- Read an address register. -/
def readA (n : RegNo) : Op Word := fun s => .ok (s.getA n) s

/-- Write an address register. -/
def writeA (n : RegNo) (v : Word) : Op Unit := fun s => .ok () (s.setA n v)

/-- Read A7. -/
def readSP : Op Word := fun s => .ok s.getSP s

/-- Write A7. -/
def writeSP (v : Word) : Op Unit := fun s => .ok () (s.setSP v)

/-- Read `pc`. -/
def readPC : Op Word := fun s => .ok s.pc s

/-- Write `pc`. -/
def writePC (v : Word) : Op Unit := fun s => .ok () { s with pc := v }

/-- Read the flags. -/
def readFlags : Op Ccr := fun s => .ok s.flags s

/-- Write the flags. -/
def writeFlags (f : Ccr) : Op Unit := fun s => .ok () (s.setFlags f)

/-- `get_SR` (R40). -/
def readSR : Op Half := fun s => .ok s.sr s

/-- `set_SR` (R40). -/
def writeSR (v : Half) : Op Unit := fun s => .ok () (s.setSR v)

/-- `get_CCR` (R41). -/
def readCCR : Op Byte := fun s => .ok s.getCCR s

/-- `set_CCR` (R41). -/
def writeCCR (v : Byte) : Op Unit := fun s => .ok () (s.setCCR v)

/-- The model, for the rules that differ by it. -/
def readModel : Op Model := fun s => .ok s.cfg.model s

/-- Read a general register of an extension word (R412). -/
def readG : GReg → Op Word
  | .d n => readD n
  | .a n => readA n

/-- Write all 32 bits of a general register (R414). -/
def writeG (r : GReg) (v : Word) : Op Unit :=
  match r with
  | .d n => writeD n v
  | .a n => writeA n v

/-- Push a long on the active stack: `A[7] <- A[7] - 4; MemWrite(A[7], 4, v)`. -/
def pushLong (v : Word) : Op Unit := do
  let sp ← readSP
  writeSP (sp - 4)
  memWrite (sp - 4) 4 v

/-- Pop a long: `v <- MemRead(A[7], 4); A[7] <- A[7] + 4`. -/
def popLong : Op Word := do
  let sp ← readSP
  let v ← memRead sp 4
  writeSP (sp + 4)
  pure v

/-- What a push would write (R135): A7, and the long below it. -/
def State.pushTargets (s : State) : List Target := [.a 7, .mem s.dataFC (s.getSP - 4) 4]

/-- Return from exception, the operation beside `deliver` (R416): the frame is read whole and checked before
anything is written. -/
def returnFromException : Op Unit := do
  let sp ← readSP
  let sr ← memReadFC 5 sp 2
  let npc ← memReadFC 5 (sp + 2) 4
  let fw ← memReadFC 5 (sp + 6) 2
  match fw.toNat / 4096 with
  | 0 => do
    writeSP (sp + 8)
    writeSR (sr.setWidth 16)
    writePC npc
  | 2 => do
    writeSP (sp + 12)
    writeSR (sr.setWidth 16)
    writePC npc
  | _ => raise .formatError

/-! ## The breakpoint callback (R18, R440) -/

/-- What the host may do inside the breakpoint callback (R499, D29): give the registers, the status word and
the control registers any values, and store any bytes. It does not write `run` (R499), the parameters (R7), or
the model's own count of free values. -/
structure HostEdit where
  d : Vector Word 8
  a : Vector Word 7
  usp : Word
  isp : Word
  msp : Word
  pc : Word
  sr : Half
  vbr : Word
  sfc : FC
  dfc : FC
  cacr : Word
  caar : Word
  icount : Nat
  bytes : List (FC × Word × Byte)
  word : Half
  deriving Inhabited, DecidableEq, Repr

/-- `BKPT_CB` (R18): a free function of the state and the vector. Nothing is known of it (log entry 10). -/
opaque bkptCallback : State → RegNo → HostEdit

/-- The state after the host's edit, with `opcode` the word it answered (R440). -/
def State.edited (s : State) (e : HostEdit) : State :=
  let s1 := { s with
    d := e.d, a := e.a, usp := e.usp, isp := e.isp, msp := e.msp, pc := e.pc
    sr := e.sr &&& s.cfg.model.srMask
    vbr := e.vbr, sfc := e.sfc, dfc := e.dfc, cacr := e.cacr, caar := e.caar, icount := e.icount
    opcode := e.word, draws := s.draws + 1 }
  e.bytes.foldl (fun t b => t.putByte b.1 b.2.1 b.2.2) s1

/-! ## Reset (R494, R495) -/

/-- The register values the reset procedure writes before it reads memory. -/
def State.cleared (s : State) : State :=
  { s with
    d := Vector.replicate 8 0, a := Vector.replicate 7 0, usp := 0, isp := 0, msp := 0
    vbr := 0, sfc := 0, dfc := 0, cacr := 0, caar := 0, sr := 0x2700#16 &&& s.cfg.model.srMask }

/-- `reset()`, the host's control operation (R19, R494, R495). -/
def resetProcedure (s : State) : State :=
  let s0 := s.cleared
  match s0.memGet 6 0 4 with
  | none => { s0.called 6 0 4 with pc := 0 }.halt
  | some ssp =>
    let s1 := s0.called 6 0 4
    match s1.memGet 6 4 4 with
    | none => { s1.called 6 4 4 with pc := 0 }.halt
    | some npc =>
      let s2 := { s1.called 6 4 4 with isp := ssp, pc := npc }
      match s2.fetchWordAt npc with
      | .error _ => (s2.afterFetch npc).halt
      | .ok w => { s2.afterFetch npc with opcode := w, run := .running }

end Sys2Proof.Machine
end

