-- ==== Sys2Proof/Machine/Flags.lean ====
section
/-! DEFINITION. Condition-code computation (41_condition_codes.md), the condition tests (R195), the shift
function (R310) and the digit arithmetic of the BCD instructions (R360, R361). -/

namespace Sys2Proof

/-- `msb(v, sz)` (R11). -/
def Size.msb (sz : Size) (v : Word) : Bool :=
  match sz with
  | .b => v.getLsbD 7
  | .w => v.getLsbD 15
  | .l => v.getLsbD 31

end Sys2Proof

namespace Sys2Proof.Machine

/-! ## Flag functions: source `s`, destination `d`, result `r`, old flags `f` -/

/-- `FlagsAdd` (R181). -/
def flagsAdd (sz : Size) (s d r : Word) : Ccr :=
  let c := (sz.msb s && sz.msb d) || (!sz.msb r && sz.msb d) || (sz.msb s && !sz.msb r)
  { x := c, n := sz.msb r, z := decide (r = 0)
    v := (sz.msb s && sz.msb d && !sz.msb r) || (!sz.msb s && !sz.msb d && sz.msb r), c := c }

/-- `FlagsSub` (R182). -/
def flagsSub (sz : Size) (s d r : Word) : Ccr :=
  let c := (sz.msb s && !sz.msb d) || (sz.msb r && !sz.msb d) || (sz.msb s && sz.msb r)
  { x := c, n := sz.msb r, z := decide (r = 0)
    v := (!sz.msb s && sz.msb d && !sz.msb r) || (sz.msb s && !sz.msb d && sz.msb r), c := c }

/-- `FlagsCmp` (R183): as `FlagsSub`, X unchanged. -/
def flagsCmp (sz : Size) (s d r : Word) (f : Ccr) : Ccr := { flagsSub sz s d r with x := f.x }

/-- The sticky Z of the extended operations (R184). -/
def stickyZ (r : Word) (f : Ccr) : Bool := if r = 0 then f.z else false

/-- `FlagsAddX` (R184). -/
def flagsAddX (sz : Size) (s d r : Word) (f : Ccr) : Ccr := { flagsAdd sz s d r with z := stickyZ r f }

/-- `FlagsSubX` (R184). -/
def flagsSubX (sz : Size) (s d r : Word) (f : Ccr) : Ccr := { flagsSub sz s d r with z := stickyZ r f }

/-- `FlagsNeg` (R185). -/
def flagsNeg (sz : Size) (d r : Word) : Ccr := flagsSub sz d 0 r

/-- `FlagsNegX` (R185). -/
def flagsNegX (sz : Size) (d r : Word) (f : Ccr) : Ccr := flagsSubX sz d 0 r f

/-- `FlagsLogic` (R186). -/
def flagsLogic (sz : Size) (r : Word) (f : Ccr) : Ccr :=
  { f with n := sz.msb r, z := decide (r = 0), v := false, c := false }

/-- `FlagsShift` (R187). -/
def flagsShift (sz : Size) (r : Word) (c v : Bool) (xw : Option Bool) (f : Ccr) : Ccr :=
  { x := xw.getD f.x, n := sz.msb r, z := decide (r = 0), v := v, c := c }

/-- Flags of BTST, BCHG, BCLR, BSET (R188): Z is the complement of the tested bit. -/
def flagsBit (bit : Bool) (f : Ccr) : Ccr := { f with z := !bit }

/-- An undefined flag after an instruction (R193): its old value, or a free one. -/
def undefinedFlag (old : Bool) : Op Bool := fun s =>
  match s.cfg.undefinedFlags with
  | .unchanged => .ok old s
  | .draw => .ok (Config.freeFlag s.draws) { s with draws := s.draws + 1 }

/-- Change the flags by a function. -/
def modifyFlags (g : Ccr → Ccr) : Op Unit := do
  let f ← readFlags
  writeFlags (g f)

/-! ## Condition tests -/

/-- `Cond(cc)` (R195). -/
def condTest (c : Cond) (f : Ccr) : Bool :=
  match c with
  | .t => true
  | .f => false
  | .hi => !f.c && !f.z
  | .ls => f.c || f.z
  | .cc => !f.c
  | .cs => f.c
  | .ne => !f.z
  | .eq => f.z
  | .vc => !f.v
  | .vs => f.v
  | .pl => !f.n
  | .mi => f.n
  | .ge => f.n == f.v
  | .lt => f.n != f.v
  | .gt => !f.z && (f.n == f.v)
  | .le => f.z || (f.n != f.v)

/-- The test on the flags of this moment (R196). -/
def readCond (c : Cond) : Op Bool := do
  let f ← readFlags
  pure (condTest c f)

/-! ## Two-operand arithmetic and logic: result and flags -/

/-- A two-operand operation: from the source, the destination and the old flags, the result and the new flags. -/
abbrev Alu := Size → Word → Word → Ccr → Word × Ccr

/-- ADD (R181, R240). -/
def aluAdd : Alu := fun sz s d _ => let r := sz.trunc (d + s); (r, flagsAdd sz s d r)

/-- SUB (R182, R261). -/
def aluSub : Alu := fun sz s d _ => let r := sz.trunc (d - s); (r, flagsSub sz s d r)

/-- X as a number. -/
def Ccr.xWord (f : Ccr) : Word := if f.x then 1 else 0

/-- ADDX (R184, R245). -/
def aluAddX : Alu := fun sz s d f => let r := sz.trunc (d + s + f.xWord); (r, flagsAddX sz s d r f)

/-- SUBX (R184, R266). -/
def aluSubX : Alu := fun sz s d f => let r := sz.trunc (d - s - f.xWord); (r, flagsSubX sz s d r f)

/-- AND (R290). -/
def aluAnd : Alu := fun sz s d f => let r := d &&& s; (r, flagsLogic sz r f)

/-- OR (R296). -/
def aluOr : Alu := fun sz s d f => let r := d ||| s; (r, flagsLogic sz r f)

/-- EOR (R293). -/
def aluEor : Alu := fun sz s d f => let r := d ^^^ s; (r, flagsLogic sz r f)

/-- A one-operand operation. -/
abbrev Alu1 := Size → Word → Ccr → Word × Ccr

/-- NEG (R185, R259). -/
def aluNeg : Alu1 := fun sz d _ => let r := sz.trunc (0 - d); (r, flagsNeg sz d r)

/-- NEGX (R185, R260). -/
def aluNegX : Alu1 := fun sz d f => let r := sz.trunc (0 - d - f.xWord); (r, flagsNegX sz d r f)

/-- NOT (R295). -/
def aluNot : Alu1 := fun sz d f => let r := sz.trunc (~~~d); (r, flagsLogic sz r f)

/-! ## Shifts and rotates (R310) -/

/-- The eight kinds of shift and rotate. -/
inductive ShiftKind where
  | asl | asr | lsl | lsr | rol | ror | roxl | roxr
  deriving DecidableEq, Repr

/-- What `Shift` returns: the result, the carry, the overflow, and what is written to X, if anything. -/
structure Shifted where
  res : Nat
  c : Bool
  v : Bool
  xw : Option Bool
  deriving DecidableEq, Repr

/-- The bits `hi..lo` of `d`, as `n` bits from `lo` on, are not all equal. -/
def mixedBits (d lo n : Nat) : Bool :=
  let t := d / 2 ^ lo % 2 ^ n
  decide (t ≠ 0 ∧ t ≠ 2 ^ n - 1)

/-- `signed(d, w)` (R12). -/
def signedNat (d w : Nat) : Int := if d.testBit (w - 1) then (d : Int) - 2 ^ w else d

/-- `Shift(kind, d, n, sz)` with `w = w(sz)` (R310). -/
def shift (k : ShiftKind) (w d n : Nat) (x : Bool) : Shifted :=
  if n = 0 then
    { res := d, c := decide (k = .roxl ∨ k = .roxr) && x, v := false, xw := none }
  else
    match k with
    | .asl =>
      let c := decide (n ≤ w) && d.testBit (w - n)
      { res := d * 2 ^ n % 2 ^ w, c := c
        v := if n < w then mixedBits d (w - 1 - n) (n + 1) else decide (d ≠ 0), xw := some c }
    | .asr =>
      let c := if n ≤ w then d.testBit (n - 1) else d.testBit (w - 1)
      { res := (signedNat d w / 2 ^ n % 2 ^ w).toNat, c := c, v := false, xw := some c }
    | .lsl =>
      let c := decide (n ≤ w) && d.testBit (w - n)
      { res := d * 2 ^ n % 2 ^ w, c := c, v := false, xw := some c }
    | .lsr =>
      let c := decide (n ≤ w) && d.testBit (n - 1)
      { res := d / 2 ^ n, c := c, v := false, xw := some c }
    | .rol =>
      let r := (d * 2 ^ (n % w) + d / 2 ^ (w - n % w)) % 2 ^ w
      { res := r, c := r.testBit 0, v := false, xw := none }
    | .ror =>
      let r := (d / 2 ^ (n % w) + d * 2 ^ (w - n % w)) % 2 ^ w
      { res := r, c := r.testBit (w - 1), v := false, xw := none }
    | .roxl =>
      let j := n % (w + 1)
      let e := x.toNat * 2 ^ w + d
      let r := (e * 2 ^ j + e / 2 ^ (w + 1 - j)) % 2 ^ (w + 1)
      { res := r % 2 ^ w, c := r.testBit w, v := false, xw := some (r.testBit w) }
    | .roxr =>
      let j := n % (w + 1)
      let e := x.toNat * 2 ^ w + d
      let r := (e / 2 ^ j + e * 2 ^ (w + 1 - j)) % 2 ^ (w + 1)
      { res := r % 2 ^ w, c := r.testBit w, v := false, xw := some (r.testBit w) }

/-- A shift of an operand of a size by a count: result and flags (R310, R187). -/
def aluShift (k : ShiftKind) (sz : Size) (d : Word) (n : Nat) (f : Ccr) : Word × Ccr :=
  let o := shift k sz.bits d.toNat n f.x
  let r := BitVec.ofNat 32 o.res
  (r, flagsShift sz r o.c o.v o.xw f)

/-! ## Decimal digits (R360, R361) -/

/-- `BcdAdd(s, d, x)`: the result byte and the carry. On bytes that are not decimal (R368) `t - 0xA0` may be
negative; it is taken modulo 256, as R360 writes it. -/
def bcdAdd (s d : Byte) (x : Bool) : Byte × Bool :=
  let lo := s.toNat % 16 + d.toNat % 16 + x.toNat
  let lo' := if lo > 9 then lo + 6 else lo
  let t : Int := (lo' + 16 * (s.toNat / 16) + 16 * (d.toNat / 16) : Nat)
  let c := decide (t > 0x99)
  (BitVec.ofInt 8 (if c then t - 0xA0 else t), c)

/-- `BcdSub(s, d, x)`: `d - s - x` in decimal, the result byte and the borrow. -/
def bcdSub (s d : Byte) (x : Bool) : Byte × Bool :=
  let lo : Int := (d.toNat % 16 : Nat) - (s.toNat % 16 : Nat) - (x.toNat : Int)
  let lo' := if lo < 0 ∨ lo > 9 then lo - 6 else lo
  let t := lo' + 16 * (d.toNat / 16 : Nat) - 16 * (s.toNat / 16 : Nat)
  let c := decide (t < 0 ∨ t > 0x99)
  (BitVec.ofInt 8 (if c then t + 0xA0 else t), c)

/-- `BcdFlags(res, c)` (R367): Z is sticky, N and V are undefined. -/
def bcdFlags (res : Byte) (c : Bool) : Op Unit := do
  let f ← readFlags
  let n ← undefinedFlag f.n
  let v ← undefinedFlag f.v
  writeFlags { x := c, n := n, z := if res = 0 then f.z else false, v := v, c := c }

end Sys2Proof.Machine
end

