-- ==== Sys2Proof/Machine/Operands.lean ====
section
/-! DEFINITION. The addressing modes (40_addressing_modes.md): locations, their computation with extension
words and side effects, reading and writing them, and what of them a fault leaves unspecified (R135). -/

namespace Sys2Proof.Machine

/-- A location (R150). -/
inductive Loc where
  | dreg (n : RegNo)
  | areg (n : RegNo)
  | mem (fc : FC) (a : Word)
  | imm (v : Word)
  deriving DecidableEq, Repr

/-- `EAAddr` (R150). It is taken of memory locations only, which the classes of R113 guarantee; 0 elsewhere. -/
def Loc.addr : Loc → Word
  | .mem _ a => a
  | _ => 0

/-- The function code of a memory location (R167); taken of memory locations only. -/
def Loc.fc : Loc → FC
  | .mem fc _ => fc
  | _ => 0

/-- `Inc(n, sz)` (R155): A7 moves by 2 for a byte. -/
def inc (n : RegNo) (sz : Size) : Word := if n = 7 ∧ sz = .b then 2 else BitVec.ofNat 32 sz.bytes

/-- `Index(w)` (R158): the index register, whole or its sign-extended low word. -/
def State.index (s : State) (x : Brief) : Word :=
  let r := if x.isA then s.getA x.reg else s.getD x.reg
  if x.long then r else sext16 (r.setWidth 16)

/-- How many extension words a mode has (R107). -/
def eaWordCount (sz : Size) : Ea → Nat
  | .disp _ _ => 1
  | .index _ _ => 1
  | .absW _ => 1
  | .absL _ => 2
  | .pcDisp _ => 1
  | .pcIndex _ => 1
  | .imm _ => if sz = .l then 2 else 1
  | _ => 0

/-- The location of an effective address, by the registers of `s` before its side effect; `base` is the
address of its first extension word (R151 to R163). -/
def State.locate (s : State) (ea : Ea) (sz : Size) (base : Word) : Loc :=
  match ea with
  | .dreg n => .dreg n
  | .areg n => .areg n
  | .ind n => .mem s.dataFC (s.getA n)
  | .postinc n => .mem s.dataFC (s.getA n)
  | .predec n => .mem s.dataFC (s.getA n - inc n sz)
  | .disp n d => .mem s.dataFC (s.getA n + sext16 d)
  | .index n x => .mem s.dataFC (s.getA n + s.index x + sext8 x.disp)
  | .absW a => .mem s.dataFC (sext16 a)
  | .absL a => .mem s.dataFC a
  | .pcDisp d => .mem s.progFC (base + sext16 d)
  | .pcIndex x => .mem s.progFC (base + s.index x + sext8 x.disp)
  | .imm v => .imm v

/-- The register side effect of an effective address (R155, R156, R166). -/
def State.sideEffect (s : State) (ea : Ea) (sz : Size) : State :=
  match ea with
  | .postinc n => s.setA n (s.getA n + inc n sz)
  | .predec n => s.setA n (s.getA n - inc n sz)
  | _ => s

/-- The brief extension word of a mode that mc68020 refuses (R108, R158). -/
def refusedBrief : Ea → Bool
  | .index _ x => decide (x.scale ≠ 0) || x.full
  | .pcIndex x => decide (x.scale ≠ 0) || x.full
  | _ => false

/-- `CheckBrief` (R158). -/
def checkBrief (ea : Ea) : Op Unit := fun s =>
  if s.cfg.model.is20 && refusedBrief ea then .error (.refuse .extensionWord68020) s else .ok () s

/-- The address computation and its side effect, after the extension words. -/
def applyEA (ea : Ea) (sz : Size) (base : Word) : Op Loc := fun s =>
  .ok (s.locate ea sz base) (s.sideEffect ea sz)

/-- `CalcEA` (R151): fetch the extension words, check the brief word, compute the location with its side
effect. It is called once for each effective address (R166). -/
def calcEA (ea : Ea) (sz : Size) : Op Loc := do
  let base ← readPC
  takeExt (eaWordCount sz ea)
  checkBrief ea
  applyEA ea sz base

/-- `ReadEA` (R164). -/
def readEA (loc : Loc) (sz : Size) : Op Word :=
  match loc with
  | .dreg n => readDSized sz n
  | .areg n => do
    let v ← readA n
    pure (sz.trunc v)
  | .mem fc a => memReadFC fc a sz.bytes
  | .imm v => pure v

/-- `WriteEA` (R165). No alterable class admits an immediate, so the last case never arises. -/
def writeEA (loc : Loc) (sz : Size) (v : Word) : Op Unit :=
  match loc with
  | .dreg n => writeDSized sz n v
  | .areg n => writeA n (sz.sext v)
  | .mem fc a => memWriteFC fc a sz.bytes v
  | .imm _ => pure ()

/-- Compute an effective address and read it: `ReadEA(CalcEA(..), sz)`. -/
def fetchEA (ea : Ea) (sz : Size) : Op Word := do
  let loc ← calcEA ea sz
  readEA loc sz

/-- The start of a read-modify-write: the location, computed once, and its value (R166). -/
def openEA (ea : Ea) (sz : Size) : Op (Loc × Word) := do
  let loc ← calcEA ea sz
  let d ← readEA loc sz
  pure (loc, d)

/-- The operands of the `-(Ay),-(Ax)` forms (R166): the source value, the destination and its value. -/
def predecPair (sz : Size) (ay ax : RegNo) : Op (Word × Loc × Word) := do
  let v ← fetchEA (.predec ay) sz
  let ld ← openEA (.predec ax) sz
  pure (v, ld.1, ld.2)

/-! ## What a faulting access leaves unspecified (R135 (a), log entry 8) -/

/-- The address register an effective address updates. -/
def eaSideTargets : Ea → List Target
  | .postinc n => [.a n]
  | .predec n => [.a n]
  | _ => []

/-- What a write to a location writes. -/
def Loc.targets (sz : Size) : Loc → List Target
  | .dreg n => [.d n]
  | .areg n => [.a n]
  | .mem fc a => [.mem fc a sz.bytes]
  | .imm _ => []

/-- What an instruction that writes an effective address writes through it. The base of the PC-relative modes
plays no part: they are never a destination (R161). DESIGN CHOICE (log entry 9): where an extension word of the
address cannot be fetched, the spec does not say which bytes the instruction "would write" (R135, R463, D23); the
word is then a free value (`State.peek`), so the bytes freed are those at an address of which nothing is known. -/
def State.eaTargets (s : State) (ea : Ea) (sz : Size) : List Target :=
  eaSideTargets ea ++ (s.locate ea sz s.pc).targets sz

/-- The same for a destination computed after a source's side effect (R166). DESIGN CHOICE as for
`State.eaTargets` (log entry 9): a destination whose extension word was not fetched is at a free address. -/
def State.pairTargets (s : State) (src dst : Ea) (sz : Size) : List Target :=
  eaSideTargets src ++ (s.sideEffect src sz).eaTargets dst sz

/-- The register an extension word names (R412). -/
def gregTargets : GReg → List Target
  | .d n => [.d n]
  | .a n => [.a n]

end Sys2Proof.Machine
end

