-- ==== Sys2Proof/Machine/Arithmetic.lean ====
section
/-! DEFINITION. The integer arithmetic instructions (43_integer_arithmetic.md), and the operand forms that the
logical instructions share with them. -/

namespace Sys2Proof.Machine

/-! ## Operand forms -/

/-- `op <ea>,Dn`: the source from an effective address, the result to a data register (R240). -/
def aluToReg (f : Alu) (sz : Size) (dn : RegNo) (ea : Ea) : Op Unit := do
  let v ← fetchEA ea sz
  let d ← readDSized sz dn
  let fl ← readFlags
  let o := f sz v d fl
  writeDSized sz dn o.1
  writeFlags o.2

/-- `op Dn,<ea>`: read, change and write one location (R241). -/
def aluToEa (f : Alu) (sz : Size) (dn : RegNo) (ea : Ea) : Op Unit := do
  let ld ← openEA ea sz
  let v ← readDSized sz dn
  let fl ← readFlags
  let o := f sz v ld.2 fl
  writeEA ld.1 sz o.1
  writeFlags o.2

/-- `op #imm,<ea>`: the immediate words come first (R101, R243). -/
def aluImm (f : Alu) (sz : Size) (imm : Word) (ea : Ea) : Op Unit := do
  let v ← fetchEA (.imm imm) sz
  let ld ← openEA ea sz
  let fl ← readFlags
  let o := f sz v ld.2 fl
  writeEA ld.1 sz o.1
  writeFlags o.2

/-- `op Dy,Dx` (R245). -/
def aluRegReg (f : Alu) (sz : Size) (dx dy : RegNo) : Op Unit := do
  let v ← readDSized sz dy
  let d ← readDSized sz dx
  let fl ← readFlags
  let o := f sz v d fl
  writeDSized sz dx o.1
  writeFlags o.2

/-- `op -(Ay),-(Ax)` (R246). -/
def aluMemMem (f : Alu) (sz : Size) (ax ay : RegNo) : Op Unit := do
  let p ← predecPair sz ay ax
  let fl ← readFlags
  let o := f sz p.1 p.2.2 fl
  writeEA p.2.1 sz o.1
  writeFlags o.2

/-- `op <ea>` with one operand (R259). -/
def aluUnary (f : Alu1) (sz : Size) (ea : Ea) : Op Unit := do
  let ld ← openEA ea sz
  let fl ← readFlags
  let o := f sz ld.2 fl
  writeEA ld.1 sz o.1
  writeFlags o.2

/-- `op <ea>,An`: 32-bit address arithmetic without flags, a word source sign-extended (R242). -/
def addressOp (f : Word → Word → Word) (sz : Size) (an : RegNo) (ea : Ea) : Op Unit := do
  let v ← fetchEA ea sz
  let a ← readA an
  writeA an (f a (sz.sext v))

/-- The quick value: 0 means 8 (R111, R244). -/
def quickValue (q : RegNo) : Word := if q = 0 then 8 else BitVec.ofNat 32 q.val

/-- ADDQ and SUBQ (R244, R265): to An without flags and at 32 bits, else as an immediate of the size. -/
def quickOp (f : Alu) (g : Word → Word → Word) (sz : Size) (q : RegNo) (ea : Ea) : Op Unit :=
  match ea with
  | .areg n => do
    let a ← readA n
    writeA n (g a (quickValue q))
  | _ => do
    let ld ← openEA ea sz
    let fl ← readFlags
    let o := f sz (quickValue q) ld.2 fl
    writeEA ld.1 sz o.1
    writeFlags o.2

/-! ## Add -/

/-- ADD <ea>,Dn (R240). -/
def execAddToReg (sz : Size) (dn : RegNo) (ea : Ea) (s : State) : Outcome :=
  cycle (.ccr 31 :: eaSideTargets ea ++ [.d dn]) (aluToReg aluAdd sz dn ea) s

/-- ADD Dn,<ea> (R241). -/
def execAddToMem (sz : Size) (dn : RegNo) (ea : Ea) (s : State) : Outcome :=
  cycle (.ccr 31 :: s.eaTargets ea sz) (aluToEa aluAdd sz dn ea) s

/-- ADDA (R242). -/
def execAdda (sz : Size) (an : RegNo) (ea : Ea) (s : State) : Outcome :=
  cycle (eaSideTargets ea ++ [.a an]) (addressOp (fun a v => a + v) sz an ea) s

/-- ADDI (R243). -/
def execAddi (sz : Size) (imm : Word) (ea : Ea) (s : State) : Outcome :=
  cycle (.ccr 31 :: s.eaTargets ea sz) (aluImm aluAdd sz imm ea) s

/-- ADDQ (R244). -/
def execAddq (sz : Size) (q : RegNo) (ea : Ea) (s : State) : Outcome :=
  cycle (.ccr 31 :: s.eaTargets ea sz) (quickOp aluAdd (fun a v => a + v) sz q ea) s

/-- ADDX Dy,Dx (R245). -/
def execAddxReg (sz : Size) (dx dy : RegNo) (s : State) : Outcome :=
  cycle [.ccr 31, .d dx] (aluRegReg aluAddX sz dx dy) s

/-- ADDX -(Ay),-(Ax) (R246). -/
def execAddxMem (sz : Size) (ax ay : RegNo) (s : State) : Outcome :=
  cycle (.ccr 31 :: s.pairTargets (.predec ay) (.predec ax) sz) (aluMemMem aluAddX sz ax ay) s

/-! ## Clear and compare -/

/-- CLR (R247): no read before the write. -/
def execClr (sz : Size) (ea : Ea) (s : State) : Outcome :=
  cycle (.ccr 15 :: s.eaTargets ea sz) (do
    let loc ← calcEA ea sz
    writeEA loc sz 0
    modifyFlags fun f => { f with n := false, z := true, v := false, c := false }) s

/-- CMP (R248). -/
def execCmp (sz : Size) (dn : RegNo) (ea : Ea) (s : State) : Outcome :=
  cycle (.ccr 15 :: eaSideTargets ea) (do
    let v ← fetchEA ea sz
    let d ← readDSized sz dn
    modifyFlags (flagsCmp sz v d (sz.trunc (d - v)))) s

/-- CMPA (R249): always at 32 bits. -/
def execCmpa (sz : Size) (an : RegNo) (ea : Ea) (s : State) : Outcome :=
  cycle (.ccr 15 :: eaSideTargets ea) (do
    let v ← fetchEA ea sz
    let a ← readA an
    modifyFlags (flagsCmp .l (sz.sext v) a (a - sz.sext v))) s

/-- CMPI (R250). -/
def execCmpi (sz : Size) (imm : Word) (ea : Ea) (s : State) : Outcome :=
  cycle (.ccr 15 :: eaSideTargets ea) (do
    let v ← fetchEA (.imm imm) sz
    let d ← fetchEA ea sz
    modifyFlags (flagsCmp sz v d (sz.trunc (d - v)))) s

/-- CMPM (R251). -/
def execCmpm (sz : Size) (ax ay : RegNo) (s : State) : Outcome :=
  cycle [.ccr 15, .a ay, .a ax] (do
    let v ← fetchEA (.postinc ay) sz
    let d ← fetchEA (.postinc ax) sz
    modifyFlags (flagsCmp sz v d (sz.trunc (d - v)))) s

/-! ## Divide (R252 to R254) -/

/-- `DivZeroFlags()` (R254): C is 0; N, Z and V are undefined. -/
def divZeroFlags : Op Unit := do
  let f ← readFlags
  let n ← undefinedFlag f.n
  let z ← undefinedFlag f.z
  let v ← undefinedFlag f.v
  writeFlags { f with n := n, z := z, v := v, c := false }

/-- `DivOverflowFlags()` (R254): as `DIV_OVERFLOW_FLAGS` says. -/
def divOverflowFlags : Op Unit := fun s =>
  match s.cfg.divOverflow with
  | .unchanged => .ok () s
  | .silicon =>
    (do
      let f ← readFlags
      let n ← undefinedFlag f.n
      let z ← undefinedFlag f.z
      writeFlags { f with n := n, z := z, v := true, c := false } : Op Unit) s

/-- The packed result: remainder in bits 31:16, quotient in bits 15:0 (R252, R253). -/
def packDiv (rem quot : Half) : Word := rem ++ quot

/-- Signed quotient, rounded toward zero, and remainder (R252). -/
def divSigned (dividend : Word) (divisor : Half) : Int × Int :=
  let q := Int.tdiv dividend.toInt divisor.toInt
  (q, dividend.toInt - q * divisor.toInt)

/-- The flags of a divide that writes its result (R252, R253). -/
def divFlags (negative zero : Bool) (f : Ccr) : Ccr := { f with n := negative, z := zero, v := false, c := false }

/-- DIVS (R252). -/
def execDivs (dn : RegNo) (ea : Ea) (s : State) : Outcome :=
  cycle (.ccr 15 :: eaSideTargets ea ++ [.d dn]) (do
    let v ← fetchEA ea .w
    if v = 0 then do
      divZeroFlags
      raise .divisionByZero
    else do
      let d ← readD dn
      let qr := divSigned d (v.setWidth 16)
      if qr.1 < -32768 ∨ qr.1 > 32767 then divOverflowFlags
      else do
        writeD dn (packDiv (BitVec.ofInt 16 qr.2) (BitVec.ofInt 16 qr.1))
        modifyFlags (divFlags (decide (qr.1 < 0)) (decide (qr.1 = 0)))) s

/-- DIVU (R253). -/
def execDivu (dn : RegNo) (ea : Ea) (s : State) : Outcome :=
  cycle (.ccr 15 :: eaSideTargets ea ++ [.d dn]) (do
    let v ← fetchEA ea .w
    if v = 0 then do
      divZeroFlags
      raise .divisionByZero
    else do
      let d ← readD dn
      let q := d.toNat / v.toNat
      if q > 0xFFFF then divOverflowFlags
      else do
        writeD dn (packDiv (BitVec.ofNat 16 (d.toNat % v.toNat)) (BitVec.ofNat 16 q))
        modifyFlags (divFlags (q.testBit 15) (decide (q = 0)))) s

/-! ## Sign extension -/

/-- EXT.W (R255). -/
def execExtW (dn : RegNo) (s : State) : Outcome :=
  cycle [.ccr 15, .d dn] (do
    let v ← readD dn
    let r := Size.w.trunc (sext8 (v.setWidth 8))
    writeDSized .w dn r
    modifyFlags (flagsLogic .w r)) s

/-- EXT.L (R256). -/
def execExtL (dn : RegNo) (s : State) : Outcome :=
  cycle [.ccr 15, .d dn] (do
    let v ← readD dn
    let r := sext16 (v.setWidth 16)
    writeD dn r
    modifyFlags (flagsLogic .l r)) s

/-! ## Multiply -/

/-- The exact product of two signed words, modulo 2^32 (R257). -/
def mulSigned (a b : Half) : Word := BitVec.ofInt 32 (a.toInt * b.toInt)

/-- The product of two unsigned words (R258). -/
def mulUnsigned (a b : Half) : Word := BitVec.ofNat 32 (a.toNat * b.toNat)

/-- A multiply (R257, R258). -/
def mulRule (f : Half → Half → Word) (dn : RegNo) (ea : Ea) : Op Unit := do
  let v ← fetchEA ea .w
  let d ← readD dn
  let p := f (d.setWidth 16) (v.setWidth 16)
  writeD dn p
  modifyFlags (flagsLogic .l p)

/-- MULS (R257). -/
def execMuls (dn : RegNo) (ea : Ea) (s : State) : Outcome :=
  cycle (.ccr 15 :: eaSideTargets ea ++ [.d dn]) (mulRule mulSigned dn ea) s

/-- MULU (R258). -/
def execMulu (dn : RegNo) (ea : Ea) (s : State) : Outcome :=
  cycle (.ccr 15 :: eaSideTargets ea ++ [.d dn]) (mulRule mulUnsigned dn ea) s

/-! ## Negate -/

/-- NEG (R259). -/
def execNeg (sz : Size) (ea : Ea) (s : State) : Outcome :=
  cycle (.ccr 31 :: s.eaTargets ea sz) (aluUnary aluNeg sz ea) s

/-- NEGX (R260). -/
def execNegx (sz : Size) (ea : Ea) (s : State) : Outcome :=
  cycle (.ccr 31 :: s.eaTargets ea sz) (aluUnary aluNegX sz ea) s

/-! ## Subtract -/

/-- SUB <ea>,Dn (R261). -/
def execSubToReg (sz : Size) (dn : RegNo) (ea : Ea) (s : State) : Outcome :=
  cycle (.ccr 31 :: eaSideTargets ea ++ [.d dn]) (aluToReg aluSub sz dn ea) s

/-- SUB Dn,<ea> (R262). -/
def execSubToMem (sz : Size) (dn : RegNo) (ea : Ea) (s : State) : Outcome :=
  cycle (.ccr 31 :: s.eaTargets ea sz) (aluToEa aluSub sz dn ea) s

/-- SUBA (R263). -/
def execSuba (sz : Size) (an : RegNo) (ea : Ea) (s : State) : Outcome :=
  cycle (eaSideTargets ea ++ [.a an]) (addressOp (fun a v => a - v) sz an ea) s

/-- SUBI (R264). -/
def execSubi (sz : Size) (imm : Word) (ea : Ea) (s : State) : Outcome :=
  cycle (.ccr 31 :: s.eaTargets ea sz) (aluImm aluSub sz imm ea) s

/-- SUBQ (R265). -/
def execSubq (sz : Size) (q : RegNo) (ea : Ea) (s : State) : Outcome :=
  cycle (.ccr 31 :: s.eaTargets ea sz) (quickOp aluSub (fun a v => a - v) sz q ea) s

/-- SUBX Dy,Dx (R266). -/
def execSubxReg (sz : Size) (dx dy : RegNo) (s : State) : Outcome :=
  cycle [.ccr 31, .d dx] (aluRegReg aluSubX sz dx dy) s

/-- SUBX -(Ay),-(Ax) (R267). -/
def execSubxMem (sz : Size) (ax ay : RegNo) (s : State) : Outcome :=
  cycle (.ccr 31 :: s.pairTargets (.predec ay) (.predec ax) sz) (aluMemMem aluSubX sz ax ay) s

end Sys2Proof.Machine
end

