-- ==== Sys2Proof/Machine/Bcd.lean ====
section
/-! DEFINITION. The binary-coded decimal instructions (47_bcd.md). -/

namespace Sys2Proof.Machine

/-- A decimal operation on a source, a destination and X (R360, R361). -/
abbrev BcdOp := Byte → Byte → Bool → Byte × Bool

/-- The register form (R362, R364). -/
def bcdRegReg (f : BcdOp) (dx dy : RegNo) : Op Unit := do
  let v ← readDSized .b dy
  let d ← readDSized .b dx
  let fl ← readFlags
  let o := f (v.setWidth 8) (d.setWidth 8) fl.x
  writeDSized .b dx (o.1.setWidth 32)
  bcdFlags o.1 o.2

/-- The memory form (R363, R365). -/
def bcdMemMem (f : BcdOp) (ax ay : RegNo) : Op Unit := do
  let p ← predecPair .b ay ax
  let fl ← readFlags
  let o := f (p.1.setWidth 8) (p.2.2.setWidth 8) fl.x
  writeEA p.2.1 .b (o.1.setWidth 32)
  bcdFlags o.1 o.2

/-- ABCD Dy,Dx (R362). -/
def execAbcdReg (dx dy : RegNo) (s : State) : Outcome :=
  cycle [.ccr 31, .d dx] (bcdRegReg bcdAdd dx dy) s

/-- ABCD -(Ay),-(Ax) (R363). -/
def execAbcdMem (ax ay : RegNo) (s : State) : Outcome :=
  cycle (.ccr 31 :: s.pairTargets (.predec ay) (.predec ax) .b) (bcdMemMem bcdAdd ax ay) s

/-- SBCD Dy,Dx (R364). -/
def execSbcdReg (dx dy : RegNo) (s : State) : Outcome :=
  cycle [.ccr 31, .d dx] (bcdRegReg bcdSub dx dy) s

/-- SBCD -(Ay),-(Ax) (R365). -/
def execSbcdMem (ax ay : RegNo) (s : State) : Outcome :=
  cycle (.ccr 31 :: s.pairTargets (.predec ay) (.predec ax) .b) (bcdMemMem bcdSub ax ay) s

/-- NBCD (R366): `0 - d - X` in decimal. -/
def execNbcd (ea : Ea) (s : State) : Outcome :=
  cycle (.ccr 31 :: s.eaTargets ea .b) (do
    let ld ← openEA ea .b
    let fl ← readFlags
    let o := bcdSub (ld.2.setWidth 8) 0 fl.x
    writeEA ld.1 .b (o.1.setWidth 32)
    bcdFlags o.1 o.2) s

end Sys2Proof.Machine
end

