-- ==== Sys2Proof/Machine/BitOps.lean ====
section
/-! DEFINITION. The bit manipulation instructions (46_bit_manipulation.md). -/

namespace Sys2Proof.Machine

/-- A data register operand is long, a memory operand a byte (R340). -/
def bitSize : Ea → Size
  | .dreg _ => .l
  | _ => .b

/-- The bit number modulo the operand's width (R340). -/
def bitIndex (ea : Ea) (n : Nat) : Nat := n % (bitSize ea).bits

/-- `2^k`. -/
def bitMask (k : Nat) : Word := 1#32 <<< k

/-- The structure of R340 up to the write-back: the location, the value and the bit's mask; Z is written. -/
def bitTest (n : Nat) (ea : Ea) : Op (Loc × Word) := do
  let ld ← openEA ea (bitSize ea)
  modifyFlags (flagsBit (ld.2.getLsbD (bitIndex ea n)))
  pure ld

/-- A bit instruction that writes back (R342 to R344): `f` is given the value and `2^k`. -/
def bitWrite (f : Word → Word → Word) (n : Nat) (ea : Ea) : Op Unit := do
  let ld ← bitTest n ea
  writeEA ld.1 (bitSize ea) (f ld.2 (bitMask (bitIndex ea n)))

/-- BTST, without write-back (R341). -/
def bitOnly (n : Nat) (ea : Ea) : Op Unit := do
  let _ ← bitTest n ea
  pure ()

/-- The static forms: the bit number's word is fetched first (R340). -/
def staticBit (bit : Byte) (k : Nat → Op Unit) : Op Unit := do
  fetchExt
  k bit.toNat

/-- The dynamic forms: the bit number is a data register, read before the operand (R340). -/
def dynamicBit (dn : RegNo) (k : Nat → Op Unit) : Op Unit := do
  let v ← readD dn
  k v.toNat

/-- The write-back of BCHG (R342). -/
def bitChange (v m : Word) : Word := v ^^^ m

/-- The write-back of BCLR (R343). -/
def bitClear (v m : Word) : Word := v &&& ~~~m

/-- The write-back of BSET (R344). -/
def bitSet (v m : Word) : Word := v ||| m

/-- BTST #k,<ea> (R341). -/
def execBtstI (bit : Byte) (ea : Ea) (s : State) : Outcome :=
  cycle (.ccr 4 :: eaSideTargets ea) (staticBit bit fun n => bitOnly n ea) s

/-- BCHG #k,<ea> (R342). -/
def execBchgI (bit : Byte) (ea : Ea) (s : State) : Outcome :=
  cycle (.ccr 4 :: s.eaTargets ea (bitSize ea)) (staticBit bit fun n => bitWrite bitChange n ea) s

/-- BCLR #k,<ea> (R343). -/
def execBclrI (bit : Byte) (ea : Ea) (s : State) : Outcome :=
  cycle (.ccr 4 :: s.eaTargets ea (bitSize ea)) (staticBit bit fun n => bitWrite bitClear n ea) s

/-- BSET #k,<ea> (R344). -/
def execBsetI (bit : Byte) (ea : Ea) (s : State) : Outcome :=
  cycle (.ccr 4 :: s.eaTargets ea (bitSize ea)) (staticBit bit fun n => bitWrite bitSet n ea) s

/-- BTST Dn,<ea> (R341). -/
def execBtstD (dn : RegNo) (ea : Ea) (s : State) : Outcome :=
  cycle (.ccr 4 :: eaSideTargets ea) (dynamicBit dn fun n => bitOnly n ea) s

/-- BCHG Dn,<ea> (R342). -/
def execBchgD (dn : RegNo) (ea : Ea) (s : State) : Outcome :=
  cycle (.ccr 4 :: s.eaTargets ea (bitSize ea)) (dynamicBit dn fun n => bitWrite bitChange n ea) s

/-- BCLR Dn,<ea> (R343). -/
def execBclrD (dn : RegNo) (ea : Ea) (s : State) : Outcome :=
  cycle (.ccr 4 :: s.eaTargets ea (bitSize ea)) (dynamicBit dn fun n => bitWrite bitClear n ea) s

/-- BSET Dn,<ea> (R344). -/
def execBsetD (dn : RegNo) (ea : Ea) (s : State) : Outcome :=
  cycle (.ccr 4 :: s.eaTargets ea (bitSize ea)) (dynamicBit dn fun n => bitWrite bitSet n ea) s

/-- TAS (R346): the flags of the byte read, then the byte with bit 7 set. -/
def execTas (ea : Ea) (s : State) : Outcome :=
  cycle (.ccr 15 :: s.eaTargets ea .b) (do
    let ld ← openEA ea .b
    modifyFlags (flagsLogic .b ld.2)
    writeEA ld.1 .b (ld.2 ||| 0x80)) s

end Sys2Proof.Machine
end

