-- ==== Sys2Proof/Machine/Control.lean ====
section
/-! DEFINITION. The program control instructions (48_program_control.md). A control transfer writes `pc`; the
next opcode is fetched by the end-of-step prefetch. -/

namespace Sys2Proof.Machine

/-- The displacement: the 8-bit field, or the word after the opcode, which is fetched (R370). -/
def readDisp (d : BranchDisp) : Op Word :=
  match d with
  | .short b => pure (sext8 b)
  | .word w => do
    fetchExt
    pure (sext16 w)

/-- A branch on a condition (R370). -/
def branchRule (c : Cond) (d : BranchDisp) : Op Unit := do
  let base ← readPC
  let disp ← readDisp d
  let t ← readCond c
  if t then writePC (base + disp) else pure ()

/-- BSR (R372). -/
def bsrRule (d : BranchDisp) : Op Unit := do
  let base ← readPC
  let disp ← readDisp d
  let ret ← readPC
  pushLong ret
  writePC (base + disp)

/-- The displacement byte 0xFF is mc68020's 32-bit form, which is refused (R120, R382). -/
def refuse32 (d : BranchDisp) : Op Unit := do
  let m ← readModel
  if m.is20 && d.isFF then refuse (.mc68020Only "Bcc.L_BRA.L_BSR.L") else pure ()

/-- Bcc (R370). DESIGN CHOICE (log entry 8): a failed fetch of the displacement frees `pc` whatever the condition. -/
def execBcc (c : Cond) (d : BranchDisp) (s : State) : Outcome :=
  cycle [.pc] (do
    refuse32 d
    branchRule c d) s

/-- BRA (R371): the condition is always true. -/
def execBra (d : BranchDisp) (s : State) : Outcome :=
  cycle [.pc] (do
    refuse32 d
    branchRule .t d) s

/-- BSR (R372). -/
def execBsr (d : BranchDisp) (s : State) : Outcome :=
  cycle (s.pushTargets ++ [.pc]) (do
    refuse32 d
    bsrRule d) s

/-- DBcc (R373). DESIGN CHOICE (log entry 8): a failed fetch of the displacement frees `D[r]` and `pc` whatever the
condition and the counter, although a true condition would write neither. -/
def execDbcc (c : Cond) (dn : RegNo) (d : Half) (s : State) : Outcome :=
  cycle [.d dn, .pc] (do
    let base ← readPC
    fetchExt
    let t ← readCond c
    if t then pure ()
    else do
      let v ← readDSized .w dn
      let cnt := Size.w.trunc (v - 1)
      writeDSized .w dn cnt
      if cnt = 0xFFFF then pure () else writePC (base + sext16 d)) s

/-- Scc (R374): no read before the write. -/
def execScc (c : Cond) (ea : Ea) (s : State) : Outcome :=
  cycle (s.eaTargets ea .b) (do
    let loc ← calcEA ea .b
    let t ← readCond c
    writeEA loc .b (if t then 0xFF else 0)) s

/-- JMP (R375). -/
def execJmp (ea : Ea) (s : State) : Outcome :=
  cycle [.pc] (do
    let loc ← calcEA ea .l
    writePC loc.addr) s

/-- JSR (R376): the target is computed before the push. -/
def execJsr (ea : Ea) (s : State) : Outcome :=
  cycle (s.pushTargets ++ [.pc]) (do
    let loc ← calcEA ea .l
    let ret ← readPC
    pushLong ret
    writePC loc.addr) s

/-- RTS (R377). -/
def execRts (s : State) : Outcome :=
  cycle [.a 7, .pc] (do
    let t ← popLong
    writePC t) s

/-- RTR (R378): only the CCR is restored. -/
def execRtr (s : State) : Outcome :=
  cycle [.ccr 31, .a 7, .pc] (do
    let sp ← readSP
    let ccr ← memRead sp 2
    writeSP (sp + 2)
    let t ← popLong
    writeCCR (ccr.setWidth 8)
    writePC t) s

/-- RTD (R379), from mc68010 on. -/
def execRtd (d : Half) (s : State) : Outcome :=
  cycle [.a 7, .pc] (do
    from68010
    fetchExt
    let sp ← readSP
    let t ← memRead sp 4
    writeSP (sp + 4 + sext16 d)
    writePC t) s

/-- TST (R380). -/
def execTst (sz : Size) (ea : Ea) (s : State) : Outcome :=
  cycle (.ccr 15 :: eaSideTargets ea) (do
    let v ← fetchEA ea sz
    modifyFlags (flagsLogic sz v)) s

/-- NOP (R383): `pc` and `icount` only. -/
def execNop (s : State) : Outcome := cycle [] (pure ()) s

end Sys2Proof.Machine
end

