-- ==== Sys2Proof/Machine/DataMovement.lean ====
section
/-! DEFINITION. The data-movement instructions (42_data_movement.md). -/

namespace Sys2Proof.Machine

/-! ## MOVE, MOVEA, MOVEQ -/

/-- MOVE at a size (R210): the source is read before the destination is computed. -/
def moveRule (sz : Size) (src dst : Ea) : Op Unit := do
  let v ← fetchEA src sz
  let loc ← calcEA dst sz
  writeEA loc sz v
  modifyFlags (flagsLogic sz v)

/-- MOVE.B (R210). -/
def execMoveB (src dst : Ea) (s : State) : Outcome :=
  cycle (.ccr 15 :: s.pairTargets src dst .b) (moveRule .b src dst) s

/-- MOVE.L (R210). -/
def execMoveL (src dst : Ea) (s : State) : Outcome :=
  cycle (.ccr 15 :: s.pairTargets src dst .l) (moveRule .l src dst) s

/-- MOVE.W (R210). -/
def execMoveW (src dst : Ea) (s : State) : Outcome :=
  cycle (.ccr 15 :: s.pairTargets src dst .w) (moveRule .w src dst) s

/-- MOVEA at a size (R211): a word is sign-extended. -/
def moveaRule (sz : Size) (an : RegNo) (src : Ea) : Op Unit := do
  let v ← fetchEA src sz
  writeA an (sz.sext v)

/-- MOVEA.L (R211). -/
def execMoveaL (an : RegNo) (src : Ea) (s : State) : Outcome :=
  cycle (eaSideTargets src ++ [.a an]) (moveaRule .l an src) s

/-- MOVEA.W (R211). -/
def execMoveaW (an : RegNo) (src : Ea) (s : State) : Outcome :=
  cycle (eaSideTargets src ++ [.a an]) (moveaRule .w an src) s

/-- MOVEQ (R212). -/
def execMoveq (dn : RegNo) (imm : Byte) (s : State) : Outcome :=
  cycle [.ccr 15, .d dn] (do
    writeD dn (sext8 imm)
    modifyFlags (flagsLogic .l (sext8 imm))) s

/-! ## MOVEM (R213 to R219) -/

/-- The register of position `i` in the order D0 .. D7, A0 .. A7 (R213). -/
def gregOfIndex (i : Fin 16) : GReg :=
  if i.val < 8 then .d (Fin.ofNat 8 i.val) else .a (Fin.ofNat 8 (i.val - 8))

/-- The registers a mask selects, in the order of transfer of the control and postincrement modes (R213). -/
def maskRegs (mask : Half) : List GReg :=
  ((List.finRange 16).filter fun i => mask.getLsbD i.val).map gregOfIndex

/-- The registers the reversed mask of `-(An)` selects, in the order of transfer: A7 first (R213). -/
def maskRegsPredec (mask : Half) : List GReg :=
  ((List.finRange 16).filter fun i => mask.getLsbD i.val).map fun i => gregOfIndex (Fin.ofNat 16 (15 - i.val))

/-- The bytes a mask transfers. -/
def maskBytes (sz : Size) (mask : Half) : Nat := sz.bytes * (maskRegs mask).length

/-- Store registers at ascending addresses (R214). -/
def storeRegs (sz : Size) (fc : FC) : List GReg → Word → Op Unit
  | [], _ => pure ()
  | r :: rs, a => do
    let v ← readG r
    memWriteFC fc a sz.bytes v
    storeRegs sz fc rs (a + BitVec.ofNat 32 sz.bytes)

/-- `Stored(R)` (R218): a register of the list, the base register according to the model. -/
def storedValue (sz : Size) (an : RegNo) (count : Nat) (r : GReg) : Op Word := do
  let v ← readG r
  let m ← readModel
  pure (if r = .a an ∧ m.is20 = true then v - BitVec.ofNat 32 (sz.bytes * count) else v)

/-- Store registers at descending addresses (R215); the answer is the last address. -/
def storeRegsDown (sz : Size) (an : RegNo) (count : Nat) : List GReg → Word → Op Word
  | [], a => pure a
  | r :: rs, a => do
    let v ← storedValue sz an count r
    memWrite (a - BitVec.ofNat 32 sz.bytes) sz.bytes v
    storeRegsDown sz an count rs (a - BitVec.ofNat 32 sz.bytes)

/-- Load registers from ascending addresses (R216), words sign-extended; the answer is the next address. -/
def loadRegs (sz : Size) (fc : FC) : List GReg → Word → Op Word
  | [], a => pure a
  | r :: rs, a => do
    let v ← memReadFC fc a sz.bytes
    writeG r (sz.sext v)
    loadRegs sz fc rs (a + BitVec.ofNat 32 sz.bytes)

/-- MOVEM registers to memory, control modes (R214). DESIGN CHOICE (log entry 9): where the mask or an extension word
of the address cannot be fetched, the word is a free value, and with it the bytes freed. -/
def execMovemToMem (sz : Size) (mask : Half) (ea : Ea) (s : State) : Outcome :=
  let dst := s.locate ea sz s.pc
  cycle [.mem dst.fc dst.addr (maskBytes sz mask)] (do
    fetchExt
    let loc ← calcEA ea sz
    storeRegs sz loc.fc (maskRegs mask) loc.addr) s

/-- MOVEM registers to memory, predecrement (R215, R218). A mask that cannot be fetched is a free value (log entry 9). -/
def execMovemToPredec (sz : Size) (mask : Half) (an : RegNo) (s : State) : Outcome :=
  cycle [.a an, .mem s.dataFC (s.getA an - BitVec.ofNat 32 (maskBytes sz mask)) (maskBytes sz mask)] (do
    fetchExt
    let a ← readA an
    let a' ← storeRegsDown sz an (maskRegsPredec mask).length (maskRegsPredec mask) a
    writeA an a') s

/-- MOVEM memory to registers, control modes (R216). A mask that cannot be fetched is a free value (log entry 9). -/
def execMovemFromMem (sz : Size) (mask : Half) (ea : Ea) (s : State) : Outcome :=
  cycle ((maskRegs mask).flatMap gregTargets) (do
    fetchExt
    let loc ← calcEA ea sz
    let _ ← loadRegs sz loc.fc (maskRegs mask) loc.addr
    pure ()) s

/-- MOVEM memory to registers, postincrement (R217): the incremented address wins. A mask that cannot be fetched is a
free value (log entry 9). -/
def execMovemFromPostinc (sz : Size) (mask : Half) (an : RegNo) (s : State) : Outcome :=
  cycle ((maskRegs mask).flatMap gregTargets ++ [.a an]) (do
    fetchExt
    let a ← readA an
    let a' ← loadRegs sz s.dataFC (maskRegs mask) a
    writeA an a') s

/-! ## MOVEP (R220, R221): bytes at every second address -/

/-- Store the low `n` bytes of a value, the high one first, at `a`, `a + 2`, ... (R220). -/
def storeAlternate (v : Word) : Nat → Word → Op Unit
  | 0, _ => pure ()
  | n + 1, a => do
    memWrite a 1 (v >>> (8 * n))
    storeAlternate v n (a + 2)

/-- Read `n` bytes at `a`, `a + 2`, ..., the high one first (R221). -/
def loadAlternate : Nat → Word → Op Word
  | 0, _ => pure 0
  | n + 1, a => do
    let v ← memRead a 1
    let rest ← loadAlternate n (a + 2)
    pure ((v <<< (8 * n)) ||| rest)

/-- The bytes MOVEP stores, for R135 (a). A displacement that cannot be fetched is a free value (log entry 9). -/
def alternateTargets (fc : FC) (a : Word) (n : Nat) : List Target :=
  (List.range n).map fun k => .mem fc (a + BitVec.ofNat 32 (2 * k)) 1

/-- MOVEP memory to register at a size (R221). -/
def movepLoadRule (sz : Size) (dx ay : RegNo) (d : Half) : Op Unit := do
  fetchExt
  let base ← readA ay
  let v ← loadAlternate sz.bytes (base + sext16 d)
  writeDSized sz dx v

/-- MOVEP register to memory at a size (R220). -/
def movepStoreRule (sz : Size) (dx ay : RegNo) (d : Half) : Op Unit := do
  fetchExt
  let base ← readA ay
  let v ← readD dx
  storeAlternate v sz.bytes (base + sext16 d)

/-- MOVEP.W (d16,Ay),Dx (R221). -/
def execMovepLoadW (dx ay : RegNo) (d : Half) (s : State) : Outcome :=
  cycle [.d dx] (movepLoadRule .w dx ay d) s

/-- MOVEP.L (d16,Ay),Dx (R221). -/
def execMovepLoadL (dx ay : RegNo) (d : Half) (s : State) : Outcome :=
  cycle [.d dx] (movepLoadRule .l dx ay d) s

/-- MOVEP.W Dx,(d16,Ay) (R220). -/
def execMovepStoreW (dx ay : RegNo) (d : Half) (s : State) : Outcome :=
  cycle (alternateTargets s.dataFC (s.getA ay + sext16 d) 2) (movepStoreRule .w dx ay d) s

/-- MOVEP.L Dx,(d16,Ay) (R220). -/
def execMovepStoreL (dx ay : RegNo) (d : Half) (s : State) : Outcome :=
  cycle (alternateTargets s.dataFC (s.getA ay + sext16 d) 4) (movepStoreRule .l dx ay d) s

/-! ## Addresses, exchanges, stack frames -/

/-- LEA (R222). -/
def execLea (an : RegNo) (ea : Ea) (s : State) : Outcome :=
  cycle [.a an] (do
    let loc ← calcEA ea .l
    writeA an loc.addr) s

/-- PEA (R223). -/
def execPea (ea : Ea) (s : State) : Outcome :=
  cycle s.pushTargets (do
    let loc ← calcEA ea .l
    pushLong loc.addr) s

/-- EXG Dx,Dy (R224). -/
def execExgDD (dx dy : RegNo) (s : State) : Outcome :=
  cycle [.d dx, .d dy] (do
    let x ← readD dx
    let y ← readD dy
    writeD dx y
    writeD dy x) s

/-- EXG Ax,Ay (R224). -/
def execExgAA (ax ay : RegNo) (s : State) : Outcome :=
  cycle [.a ax, .a ay] (do
    let x ← readA ax
    let y ← readA ay
    writeA ax y
    writeA ay x) s

/-- EXG Dx,Ay (R224). -/
def execExgDA (dx ay : RegNo) (s : State) : Outcome :=
  cycle [.d dx, .a ay] (do
    let x ← readD dx
    let y ← readA ay
    writeD dx y
    writeA ay x) s

/-- LINK (R225): for A7 the decremented value is pushed. -/
def execLink (an : RegNo) (d : Half) (s : State) : Outcome :=
  cycle (s.pushTargets ++ [.a an]) (do
    fetchExt
    let sp ← readSP
    writeSP (sp - 4)
    let v ← readA an
    memWrite (sp - 4) 4 v
    writeA an (sp - 4)
    let sp' ← readSP
    writeSP (sp' + sext16 d)) s

/-- UNLK (R226): for A7 the loaded value wins. -/
def execUnlk (an : RegNo) (s : State) : Outcome :=
  cycle [.a 7, .a an] (do
    let a ← readA an
    writeSP a
    let v ← popLong
    writeA an v) s

end Sys2Proof.Machine
end

