-- ==== Sys2Proof/Machine/Logical.lean ====
section
/-! DEFINITION. The logical instructions (44_logical.md). -/

namespace Sys2Proof.Machine

/-- AND <ea>,Dn (R290). -/
def execAndToReg (sz : Size) (dn : RegNo) (ea : Ea) (s : State) : Outcome :=
  cycle (.ccr 15 :: eaSideTargets ea ++ [.d dn]) (aluToReg aluAnd sz dn ea) s

/-- AND Dn,<ea> (R291). -/
def execAndToMem (sz : Size) (dn : RegNo) (ea : Ea) (s : State) : Outcome :=
  cycle (.ccr 15 :: s.eaTargets ea sz) (aluToEa aluAnd sz dn ea) s

/-- ANDI (R292). -/
def execAndi (sz : Size) (imm : Word) (ea : Ea) (s : State) : Outcome :=
  cycle (.ccr 15 :: s.eaTargets ea sz) (aluImm aluAnd sz imm ea) s

/-- EOR Dn,<ea> (R293). -/
def execEor (sz : Size) (dn : RegNo) (ea : Ea) (s : State) : Outcome :=
  cycle (.ccr 15 :: s.eaTargets ea sz) (aluToEa aluEor sz dn ea) s

/-- EORI (R294). -/
def execEori (sz : Size) (imm : Word) (ea : Ea) (s : State) : Outcome :=
  cycle (.ccr 15 :: s.eaTargets ea sz) (aluImm aluEor sz imm ea) s

/-- NOT (R295). -/
def execNotEa (sz : Size) (ea : Ea) (s : State) : Outcome :=
  cycle (.ccr 15 :: s.eaTargets ea sz) (aluUnary aluNot sz ea) s

/-- OR <ea>,Dn (R296). -/
def execOrToReg (sz : Size) (dn : RegNo) (ea : Ea) (s : State) : Outcome :=
  cycle (.ccr 15 :: eaSideTargets ea ++ [.d dn]) (aluToReg aluOr sz dn ea) s

/-- OR Dn,<ea> (R297). -/
def execOrToMem (sz : Size) (dn : RegNo) (ea : Ea) (s : State) : Outcome :=
  cycle (.ccr 15 :: s.eaTargets ea sz) (aluToEa aluOr sz dn ea) s

/-- ORI (R298). -/
def execOri (sz : Size) (imm : Word) (ea : Ea) (s : State) : Outcome :=
  cycle (.ccr 15 :: s.eaTargets ea sz) (aluImm aluOr sz imm ea) s

end Sys2Proof.Machine
end

