-- ==== Sys2Proof/Machine/Mc68020.lean ====
section
/-! DEFINITION. The MC68020-only patterns (R120): on mc68020 they are refused by name, "because no source
describes them, and a refusal errs toward unprovable"; up to mc68010 their words select no row and are illegal,
but for the 32-bit branches, which are 8-bit branches with displacement -1 there. -/

namespace Sys2Proof.Machine

/-- Refused by name on mc68020, illegal before it (R120, R117). -/
def only68020 (name : String) : Op Unit := fun s =>
  if s.cfg.model.is20 then .error (.refuse (.mc68020Only name)) s else .error (.exc .illegalInstruction) s

/-- CHK2, CMP2 (R120). -/
def execChk2Cmp2 (_ss : Fin 4) (_ea : EaField) (s : State) : Outcome := cycle [] (only68020 "CHK2_CMP2") s

/-- CAS, CAS2 (R120). -/
def execCas (_ss : Fin 4) (_ea : EaField) (s : State) : Outcome := cycle [] (only68020 "CAS") s

/-- RTM (R120). -/
def execRtm (_isA : Bool) (_rn : RegNo) (s : State) : Outcome := cycle [] (only68020 "RTM") s

/-- CALLM (R120). -/
def execCallm (_ea : EaField) (s : State) : Outcome := cycle [] (only68020 "CALLM") s

/-- CHK.L (R120). -/
def execChkL (_dn : RegNo) (_ea : EaField) (s : State) : Outcome := cycle [] (only68020 "CHK.L") s

/-- LINK.L (R120). -/
def execLinkL (_an : RegNo) (s : State) : Outcome := cycle [] (only68020 "LINK.L") s

/-- EXTB.L (R120). -/
def execExtbL (_dn : RegNo) (s : State) : Outcome := cycle [] (only68020 "EXTB.L") s

/-- MULS.L, MULU.L (R120). -/
def execMulL (_ea : EaField) (s : State) : Outcome := cycle [] (only68020 "MULS.L_MULU.L") s

/-- DIVS.L, DIVU.L (R120). -/
def execDivL (_ea : EaField) (s : State) : Outcome := cycle [] (only68020 "DIVS.L_DIVU.L") s

/-- TRAPcc (R120). -/
def execTrapcc (_c : Cond) (_op : RegNo) (s : State) : Outcome := cycle [] (only68020 "TRAPcc") s

/-- PACK (R120). -/
def execPack (_y : RegNo) (_mem : Bool) (_x : RegNo) (s : State) : Outcome := cycle [] (only68020 "PACK") s

/-- UNPK (R120). -/
def execUnpk (_y : RegNo) (_mem : Bool) (_x : RegNo) (s : State) : Outcome := cycle [] (only68020 "UNPK") s

/-- The bit-field group (R120). -/
def execBitField (_op : RegNo) (_ea : EaField) (s : State) : Outcome := cycle [] (only68020 "BFxxx") s

/-- TST with the modes of the MC68020 (R120). -/
def execTst20 (_sz : Size) (_ea : EaField) (s : State) : Outcome := cycle [] (only68020 "TST__MC68020_modes") s

/-- CMPI with the modes of the MC68020 (R120). -/
def execCmpi20 (_sz : Size) (_ea : EaField) (s : State) : Outcome := cycle [] (only68020 "CMPI__MC68020_modes") s

/-- A branch with the displacement byte 0xFF: refused on mc68020 (R120), an 8-bit displacement of -1 before it
(R382); the conditions 0000 and 0001 are BRA and BSR (R195). -/
def execBccL (c : Cond) (s : State) : Outcome :=
  cycle (if c = .f then s.pushTargets ++ [.pc] else [.pc]) (do
    refuse32 (.short 0xFF)
    if c = .f then bsrRule (.short 0xFF) else branchRule c (.short 0xFF)) s

end Sys2Proof.Machine
end

