-- ==== Sys2Proof/Machine/Shift.lean ====
section
/-! DEFINITION. The shift and rotate instructions and SWAP (45_shift_rotate.md). -/

namespace Sys2Proof.Machine

/-- The count of a register shift (R310): the field, 0 meaning 8, or a data register modulo 64. -/
def readCount (c : ShiftCount) : Op Nat :=
  match c with
  | .quick q => pure (if q = 0 then 8 else q.val)
  | .reg n => do
    let v ← readD n
    pure (v.toNat % 64)

/-- A register shift (45_shift_rotate.md section 2). -/
def shiftRegRule (k : ShiftKind) (sz : Size) (c : ShiftCount) (dn : RegNo) : Op Unit := do
  let n ← readCount c
  let d ← readDSized sz dn
  let fl ← readFlags
  let o := aluShift k sz d n fl
  writeDSized sz dn o.1
  writeFlags o.2

/-- A memory shift: one word, by one (45_shift_rotate.md section 3). -/
def shiftMemRule (k : ShiftKind) (ea : Ea) : Op Unit := do
  let ld ← openEA ea .w
  let fl ← readFlags
  let o := aluShift k .w ld.2 1 fl
  writeEA ld.1 .w o.1
  writeFlags o.2

/-- ASR, register (R312). -/
def execAsrReg (sz : Size) (c : ShiftCount) (dn : RegNo) (s : State) : Outcome :=
  cycle [.ccr 31, .d dn] (shiftRegRule .asr sz c dn) s

/-- ASR, memory (R320). -/
def execAsrMem (ea : Ea) (s : State) : Outcome :=
  cycle (.ccr 31 :: s.eaTargets ea .w) (shiftMemRule .asr ea) s

/-- ASL, register (R311). -/
def execAslReg (sz : Size) (c : ShiftCount) (dn : RegNo) (s : State) : Outcome :=
  cycle [.ccr 31, .d dn] (shiftRegRule .asl sz c dn) s

/-- ASL, memory (R319). -/
def execAslMem (ea : Ea) (s : State) : Outcome :=
  cycle (.ccr 31 :: s.eaTargets ea .w) (shiftMemRule .asl ea) s

/-- LSR, register (R314). -/
def execLsrReg (sz : Size) (c : ShiftCount) (dn : RegNo) (s : State) : Outcome :=
  cycle [.ccr 31, .d dn] (shiftRegRule .lsr sz c dn) s

/-- LSR, memory (R322). -/
def execLsrMem (ea : Ea) (s : State) : Outcome :=
  cycle (.ccr 31 :: s.eaTargets ea .w) (shiftMemRule .lsr ea) s

/-- LSL, register (R313). -/
def execLslReg (sz : Size) (c : ShiftCount) (dn : RegNo) (s : State) : Outcome :=
  cycle [.ccr 31, .d dn] (shiftRegRule .lsl sz c dn) s

/-- LSL, memory (R321). -/
def execLslMem (ea : Ea) (s : State) : Outcome :=
  cycle (.ccr 31 :: s.eaTargets ea .w) (shiftMemRule .lsl ea) s

/-- ROXR, register (R318). -/
def execRoxrReg (sz : Size) (c : ShiftCount) (dn : RegNo) (s : State) : Outcome :=
  cycle [.ccr 31, .d dn] (shiftRegRule .roxr sz c dn) s

/-- ROXR, memory (R326). -/
def execRoxrMem (ea : Ea) (s : State) : Outcome :=
  cycle (.ccr 31 :: s.eaTargets ea .w) (shiftMemRule .roxr ea) s

/-- ROXL, register (R317). -/
def execRoxlReg (sz : Size) (c : ShiftCount) (dn : RegNo) (s : State) : Outcome :=
  cycle [.ccr 31, .d dn] (shiftRegRule .roxl sz c dn) s

/-- ROXL, memory (R325). -/
def execRoxlMem (ea : Ea) (s : State) : Outcome :=
  cycle (.ccr 31 :: s.eaTargets ea .w) (shiftMemRule .roxl ea) s

/-- ROR, register (R316). -/
def execRorReg (sz : Size) (c : ShiftCount) (dn : RegNo) (s : State) : Outcome :=
  cycle [.ccr 15, .d dn] (shiftRegRule .ror sz c dn) s

/-- ROR, memory (R324). -/
def execRorMem (ea : Ea) (s : State) : Outcome :=
  cycle (.ccr 15 :: s.eaTargets ea .w) (shiftMemRule .ror ea) s

/-- ROL, register (R315). -/
def execRolReg (sz : Size) (c : ShiftCount) (dn : RegNo) (s : State) : Outcome :=
  cycle [.ccr 15, .d dn] (shiftRegRule .rol sz c dn) s

/-- ROL, memory (R323). -/
def execRolMem (ea : Ea) (s : State) : Outcome :=
  cycle (.ccr 15 :: s.eaTargets ea .w) (shiftMemRule .rol ea) s

/-- SWAP (R327). -/
def execSwap (dn : RegNo) (s : State) : Outcome :=
  cycle [.ccr 15, .d dn] (do
    let v ← readD dn
    let r : Word := v.extractLsb' 0 16 ++ v.extractLsb' 16 16
    writeD dn r
    modifyFlags (flagsLogic .l r)) s

end Sys2Proof.Machine
end

