-- ==== Sys2Proof/Machine/System.lean ====
section
/-! DEFINITION. The system control instructions (49_system_control.md). A privileged one raises
`Privilege_violation` with S = 0 before any extension word is fetched (R119). -/

namespace Sys2Proof.Machine

/-! ## Condition codes and status register -/

/-- A logical immediate to the CCR (R400 to R402). -/
def ccrImm (f : Byte → Byte → Byte) (imm : Byte) : Op Unit := do
  fetchExt
  let v ← readCCR
  writeCCR (f v imm)

/-- A logical immediate to the SR, privileged (R403 to R405). -/
def srImm (f : Half → Half → Half) (imm : Half) : Op Unit := do
  privileged
  fetchExt
  let v ← readSR
  writeSR (f v imm)

/-- ANDI to CCR (R400). -/
def execAndiCcr (imm : Byte) (s : State) : Outcome := cycle [.ccr 31] (ccrImm (fun a b => a &&& b) imm) s

/-- EORI to CCR (R401). -/
def execEoriCcr (imm : Byte) (s : State) : Outcome := cycle [.ccr 31] (ccrImm (fun a b => a ^^^ b) imm) s

/-- ORI to CCR (R402). -/
def execOriCcr (imm : Byte) (s : State) : Outcome := cycle [.ccr 31] (ccrImm (fun a b => a ||| b) imm) s

/-- ANDI to SR (R403). -/
def execAndiSr (imm : Half) (s : State) : Outcome := cycle [.ccr 31] (srImm (fun a b => a &&& b) imm) s

/-- EORI to SR (R404). -/
def execEoriSr (imm : Half) (s : State) : Outcome := cycle [.ccr 31] (srImm (fun a b => a ^^^ b) imm) s

/-- ORI to SR (R405). -/
def execOriSr (imm : Half) (s : State) : Outcome := cycle [.ccr 31] (srImm (fun a b => a ||| b) imm) s

/-- MOVE to CCR (R406). -/
def execMoveToCcr (ea : Ea) (s : State) : Outcome :=
  cycle (.ccr 31 :: eaSideTargets ea) (do
    let v ← fetchEA ea .w
    writeCCR (v.setWidth 8)) s

/-- MOVE from CCR (R407), from mc68010 on; no read before the write. -/
def execMoveFromCcr (ea : Ea) (s : State) : Outcome :=
  cycle (s.eaTargets ea .w) (do
    from68010
    let loc ← calcEA ea .w
    let v ← readCCR
    writeEA loc .w (v.setWidth 32)) s

/-- MOVE to SR (R408). -/
def execMoveToSr (ea : Ea) (s : State) : Outcome :=
  cycle (.ccr 31 :: eaSideTargets ea) (do
    privileged
    let v ← fetchEA ea .w
    writeSR (v.setWidth 16)) s

/-- MOVE from SR (R409): privileged from mc68010 on; no read before the write. -/
def execMoveFromSr (ea : Ea) (s : State) : Outcome :=
  cycle (s.eaTargets ea .w) (do
    let m ← readModel
    if m.atLeast10 then privileged else pure ()
    let loc ← calcEA ea .w
    let v ← readSR
    writeEA loc .w (v.setWidth 32)) s

/-! ## Stack pointer and control registers -/

/-- MOVE An,USP (R410). -/
def execMoveToUsp (an : RegNo) (s : State) : Outcome :=
  cycle [] (do
    privileged
    let v ← readA an
    fun t => .ok () { t with usp := v }) s

/-- MOVE USP,An (R411). -/
def execMoveFromUsp (an : RegNo) (s : State) : Outcome :=
  cycle [.a an] (do
    privileged
    fun t => .ok () (t.setA an t.usp)) s

/-- The start of MOVEC: gates, the extension word, and validity; an invalid code rewinds `pc` and is illegal
(R413, R414). -/
def movecStart (code : BitVec 12) (instrAddr : Word) : Op ControlReg := do
  from68010
  privileged
  fetchExt
  let m ← readModel
  match controlRegOf code with
  | none => do
    writePC instrAddr
    raise .illegalInstruction
  | some r =>
    if r.existsOn m then pure r
    else do
      writePC instrAddr
      raise .illegalInstruction

/-- The control register a MOVEC code names on this model, if any: an invalid code writes nothing (R413). -/
def validControl (code : BitVec 12) (m : Model) : Option ControlReg :=
  (controlRegOf code).filter fun c => c.existsOn m

/-- MOVEC Rc,Rn (R414). Its one access is its extension word; where that fails, the word is a free value, and so is
the register it names (D23, log entry 9). -/
def execMovecFrom (r : GReg) (code : BitVec 12) (s : State) : Outcome :=
  cycle (if (validControl code s.cfg.model).isSome then gregTargets r else []) (do
    let c ← movecStart code s.pc
    let v ← (fun t => .ok (t.readControl c) t : Op Word)
    writeG r v) s

/-- MOVEC Rn,Rc (R414). A failed fetch of its word frees the control register a free word names (D23, log entry 9). -/
def execMovecTo (r : GReg) (code : BitVec 12) (s : State) : Outcome :=
  cycle ((validControl code s.cfg.model).toList.map Target.control) (do
    let c ← movecStart code s.pc
    let v ← readG r
    fun t => .ok () (t.writeControl c v)) s

/-! ## Machine control -/

/-- RESET (R415): privileged, no other effect. -/
def execReset (s : State) : Outcome := cycle [] privileged s

/-- RTE (R416). -/
def execRte (s : State) : Outcome :=
  cycle [.ccr 31, .a 7, .pc] (do
    privileged
    returnFromException) s

/-- The run condition STOP sets (R417). -/
def stopCondition (imm : Half) : RunCondition := if imm = 0xFFFF then .finished else .stopped

/-- STOP (R417): the one instruction that changes `run` (R491). -/
def execStop (imm : Half) (s : State) : Outcome :=
  cycle [.ccr 31] (do
    privileged
    fetchExt
    writeSR imm
    fun t => .ok () { t with run := stopCondition imm }) s

/-- Write a general register from MOVES: all 32 bits of An, sign-extended, or the low bits of Dn (R418). -/
def writeMoves (sz : Size) (r : GReg) (v : Word) : Op Unit :=
  match r with
  | .d n => writeDSized sz n v
  | .a n => writeA n (sz.sext v)

/-- MOVES (R418), from mc68010 on: the register is read before the effective address's side effect. After a failed
fetch of its own word the register, the direction and the address freed are those of a free word (log entry 9). -/
def execMoves (sz : Size) (toMem : Bool) (r : GReg) (ea : Ea) (s : State) : Outcome :=
  cycle
    (eaSideTargets ea ++
      (if toMem then [.mem s.dfc (s.locate ea sz s.pc).addr sz.bytes] else gregTargets r))
    (do
      from68010
      privileged
      fetchExt
      let v ← readG r
      let loc ← calcEA ea sz
      if toMem then memWriteFC s.dfc loc.addr sz.bytes v
      else do
        let m ← memReadFC s.sfc loc.addr sz.bytes
        writeMoves sz r m) s

/-! ## Traps and checks -/

/-- TRAP (R419). -/
def execTrap (v : Fin 16) (s : State) : Outcome := cycle [] (raise (.trap v)) s

/-- TRAPV (R420). -/
def execTrapv (s : State) : Outcome :=
  cycle [] (do
    let f ← readFlags
    if f.v then raise .overflowTrap else pure ()) s

/-- The flags of a CHK that traps (R421): N as given; Z, V and C undefined. -/
def chkFlags (n : Bool) : Op Unit := do
  let f ← readFlags
  let z ← undefinedFlag f.z
  let v ← undefinedFlag f.v
  let c ← undefinedFlag f.c
  writeFlags { f with n := n, z := z, v := v, c := c }

/-- CHK (R421): in range no flag is written (log entry 14). -/
def execChk (dn : RegNo) (ea : Ea) (s : State) : Outcome :=
  cycle (.ccr 15 :: eaSideTargets ea) (do
    let b ← fetchEA ea .w
    let d ← readD dn
    let bound := (b.setWidth 16).toInt
    let v := (d.setWidth 16).toInt
    if v < 0 then do
      chkFlags true
      raise .chkException
    else if v > bound then do
      chkFlags false
      raise .chkException
    else pure ()) s

/-- ILLEGAL (R422). -/
def execIllegal (s : State) : Outcome := cycle [] (raise .illegalInstruction) s

/-- A line-A word (R423). -/
def execLineA (_low : BitVec 12) (s : State) : Outcome := cycle [] (raise .lineAEmulator) s

/-- A line-F word (R424). -/
def execLineF (_low : BitVec 12) (s : State) : Outcome := cycle [] (raise .lineFEmulator) s

/-! ## Breakpoint -/

/-- BKPT (R440): `pc` goes back to the opcode; without a callback the word is illegal; with one the host may
change the state, and the word it answers is the next opcode, with no prefetch. -/
def execBkpt (v : RegNo) (s : State) : Outcome :=
  cycleWith false [] (do
    writePC s.pc
    fun t =>
      if t.cfg.bkptPresent then .ok () (t.edited (bkptCallback t v))
      else .error (.exc .illegalInstruction) t) s

end Sys2Proof.Machine
end

