-- ==== Sys2Proof/Machine/Dispatch.lean ====
section
/-! DEFINITION. The dispatch: one arm for each constructor of Instr. -/

namespace Sys2Proof.Machine

def exec (i : Instr) (s : State) : Host.Outcome State Fault Refusal :=
  match i with
  | .oriCcr imm => Sys2Proof.Machine.execOriCcr imm s
  | .oriSr imm => Sys2Proof.Machine.execOriSr imm s
  | .ori sz imm ea => Sys2Proof.Machine.execOri sz imm ea s
  | .andiCcr imm => Sys2Proof.Machine.execAndiCcr imm s
  | .andiSr imm => Sys2Proof.Machine.execAndiSr imm s
  | .andi sz imm ea => Sys2Proof.Machine.execAndi sz imm ea s
  | .subi sz imm ea => Sys2Proof.Machine.execSubi sz imm ea s
  | .addi sz imm ea => Sys2Proof.Machine.execAddi sz imm ea s
  | .btstI bit ea => Sys2Proof.Machine.execBtstI bit ea s
  | .bchgI bit ea => Sys2Proof.Machine.execBchgI bit ea s
  | .bclrI bit ea => Sys2Proof.Machine.execBclrI bit ea s
  | .bsetI bit ea => Sys2Proof.Machine.execBsetI bit ea s
  | .eoriCcr imm => Sys2Proof.Machine.execEoriCcr imm s
  | .eoriSr imm => Sys2Proof.Machine.execEoriSr imm s
  | .eori sz imm ea => Sys2Proof.Machine.execEori sz imm ea s
  | .cmpi sz imm ea => Sys2Proof.Machine.execCmpi sz imm ea s
  | .moves sz toMem r ea => Sys2Proof.Machine.execMoves sz toMem r ea s
  | .btstD dn ea => Sys2Proof.Machine.execBtstD dn ea s
  | .bchgD dn ea => Sys2Proof.Machine.execBchgD dn ea s
  | .bclrD dn ea => Sys2Proof.Machine.execBclrD dn ea s
  | .bsetD dn ea => Sys2Proof.Machine.execBsetD dn ea s
  | .movepLoadW dx ay d => Sys2Proof.Machine.execMovepLoadW dx ay d s
  | .movepLoadL dx ay d => Sys2Proof.Machine.execMovepLoadL dx ay d s
  | .movepStoreW dx ay d => Sys2Proof.Machine.execMovepStoreW dx ay d s
  | .movepStoreL dx ay d => Sys2Proof.Machine.execMovepStoreL dx ay d s
  | .moveB src dst => Sys2Proof.Machine.execMoveB src dst s
  | .moveL src dst => Sys2Proof.Machine.execMoveL src dst s
  | .moveW src dst => Sys2Proof.Machine.execMoveW src dst s
  | .moveaL an src => Sys2Proof.Machine.execMoveaL an src s
  | .moveaW an src => Sys2Proof.Machine.execMoveaW an src s
  | .negx sz ea => Sys2Proof.Machine.execNegx sz ea s
  | .moveFromSr ea => Sys2Proof.Machine.execMoveFromSr ea s
  | .chk dn ea => Sys2Proof.Machine.execChk dn ea s
  | .lea an ea => Sys2Proof.Machine.execLea an ea s
  | .clr sz ea => Sys2Proof.Machine.execClr sz ea s
  | .moveFromCcr ea => Sys2Proof.Machine.execMoveFromCcr ea s
  | .neg sz ea => Sys2Proof.Machine.execNeg sz ea s
  | .moveToCcr ea => Sys2Proof.Machine.execMoveToCcr ea s
  | .notEa sz ea => Sys2Proof.Machine.execNotEa sz ea s
  | .moveToSr ea => Sys2Proof.Machine.execMoveToSr ea s
  | .nbcd ea => Sys2Proof.Machine.execNbcd ea s
  | .swap dn => Sys2Proof.Machine.execSwap dn s
  | .bkpt v => Sys2Proof.Machine.execBkpt v s
  | .pea ea => Sys2Proof.Machine.execPea ea s
  | .extW dn => Sys2Proof.Machine.execExtW dn s
  | .extL dn => Sys2Proof.Machine.execExtL dn s
  | .movemToMem sz mask ea => Sys2Proof.Machine.execMovemToMem sz mask ea s
  | .movemToPredec sz mask an => Sys2Proof.Machine.execMovemToPredec sz mask an s
  | .tst sz ea => Sys2Proof.Machine.execTst sz ea s
  | .tas ea => Sys2Proof.Machine.execTas ea s
  | .illegal => Sys2Proof.Machine.execIllegal s
  | .movemFromMem sz mask ea => Sys2Proof.Machine.execMovemFromMem sz mask ea s
  | .movemFromPostinc sz mask an => Sys2Proof.Machine.execMovemFromPostinc sz mask an s
  | .trap v => Sys2Proof.Machine.execTrap v s
  | .link an d => Sys2Proof.Machine.execLink an d s
  | .unlk an => Sys2Proof.Machine.execUnlk an s
  | .moveToUsp an => Sys2Proof.Machine.execMoveToUsp an s
  | .moveFromUsp an => Sys2Proof.Machine.execMoveFromUsp an s
  | .reset => Sys2Proof.Machine.execReset s
  | .nop => Sys2Proof.Machine.execNop s
  | .stop imm => Sys2Proof.Machine.execStop imm s
  | .rte => Sys2Proof.Machine.execRte s
  | .rtd d => Sys2Proof.Machine.execRtd d s
  | .rts => Sys2Proof.Machine.execRts s
  | .trapv => Sys2Proof.Machine.execTrapv s
  | .rtr => Sys2Proof.Machine.execRtr s
  | .movecFrom r code => Sys2Proof.Machine.execMovecFrom r code s
  | .movecTo r code => Sys2Proof.Machine.execMovecTo r code s
  | .jsr ea => Sys2Proof.Machine.execJsr ea s
  | .jmp ea => Sys2Proof.Machine.execJmp ea s
  | .addq sz q ea => Sys2Proof.Machine.execAddq sz q ea s
  | .subq sz q ea => Sys2Proof.Machine.execSubq sz q ea s
  | .dbcc c dn d => Sys2Proof.Machine.execDbcc c dn d s
  | .scc c ea => Sys2Proof.Machine.execScc c ea s
  | .bra d => Sys2Proof.Machine.execBra d s
  | .bsr d => Sys2Proof.Machine.execBsr d s
  | .bcc c d => Sys2Proof.Machine.execBcc c d s
  | .moveq dn imm => Sys2Proof.Machine.execMoveq dn imm s
  | .orToReg sz dn ea => Sys2Proof.Machine.execOrToReg sz dn ea s
  | .orToMem sz dn ea => Sys2Proof.Machine.execOrToMem sz dn ea s
  | .divu dn ea => Sys2Proof.Machine.execDivu dn ea s
  | .divs dn ea => Sys2Proof.Machine.execDivs dn ea s
  | .sbcdReg dx dy => Sys2Proof.Machine.execSbcdReg dx dy s
  | .sbcdMem ax ay => Sys2Proof.Machine.execSbcdMem ax ay s
  | .subToReg sz dn ea => Sys2Proof.Machine.execSubToReg sz dn ea s
  | .subToMem sz dn ea => Sys2Proof.Machine.execSubToMem sz dn ea s
  | .suba sz an ea => Sys2Proof.Machine.execSuba sz an ea s
  | .subxReg sz dx dy => Sys2Proof.Machine.execSubxReg sz dx dy s
  | .subxMem sz ax ay => Sys2Proof.Machine.execSubxMem sz ax ay s
  | .lineA low => Sys2Proof.Machine.execLineA low s
  | .cmp sz dn ea => Sys2Proof.Machine.execCmp sz dn ea s
  | .cmpa sz an ea => Sys2Proof.Machine.execCmpa sz an ea s
  | .eor sz dn ea => Sys2Proof.Machine.execEor sz dn ea s
  | .cmpm sz ax ay => Sys2Proof.Machine.execCmpm sz ax ay s
  | .andToReg sz dn ea => Sys2Proof.Machine.execAndToReg sz dn ea s
  | .andToMem sz dn ea => Sys2Proof.Machine.execAndToMem sz dn ea s
  | .mulu dn ea => Sys2Proof.Machine.execMulu dn ea s
  | .muls dn ea => Sys2Proof.Machine.execMuls dn ea s
  | .abcdReg dx dy => Sys2Proof.Machine.execAbcdReg dx dy s
  | .abcdMem ax ay => Sys2Proof.Machine.execAbcdMem ax ay s
  | .exgDD dx dy => Sys2Proof.Machine.execExgDD dx dy s
  | .exgAA ax ay => Sys2Proof.Machine.execExgAA ax ay s
  | .exgDA dx ay => Sys2Proof.Machine.execExgDA dx ay s
  | .addToReg sz dn ea => Sys2Proof.Machine.execAddToReg sz dn ea s
  | .addToMem sz dn ea => Sys2Proof.Machine.execAddToMem sz dn ea s
  | .adda sz an ea => Sys2Proof.Machine.execAdda sz an ea s
  | .addxReg sz dx dy => Sys2Proof.Machine.execAddxReg sz dx dy s
  | .addxMem sz ax ay => Sys2Proof.Machine.execAddxMem sz ax ay s
  | .asrReg sz c dn => Sys2Proof.Machine.execAsrReg sz c dn s
  | .aslReg sz c dn => Sys2Proof.Machine.execAslReg sz c dn s
  | .asrMem ea => Sys2Proof.Machine.execAsrMem ea s
  | .aslMem ea => Sys2Proof.Machine.execAslMem ea s
  | .lsrReg sz c dn => Sys2Proof.Machine.execLsrReg sz c dn s
  | .lslReg sz c dn => Sys2Proof.Machine.execLslReg sz c dn s
  | .lsrMem ea => Sys2Proof.Machine.execLsrMem ea s
  | .lslMem ea => Sys2Proof.Machine.execLslMem ea s
  | .roxrReg sz c dn => Sys2Proof.Machine.execRoxrReg sz c dn s
  | .roxlReg sz c dn => Sys2Proof.Machine.execRoxlReg sz c dn s
  | .roxrMem ea => Sys2Proof.Machine.execRoxrMem ea s
  | .roxlMem ea => Sys2Proof.Machine.execRoxlMem ea s
  | .rorReg sz c dn => Sys2Proof.Machine.execRorReg sz c dn s
  | .rolReg sz c dn => Sys2Proof.Machine.execRolReg sz c dn s
  | .rorMem ea => Sys2Proof.Machine.execRorMem ea s
  | .rolMem ea => Sys2Proof.Machine.execRolMem ea s
  | .lineF low => Sys2Proof.Machine.execLineF low s
  | .chk2Cmp2 ss ea => Sys2Proof.Machine.execChk2Cmp2 ss ea s
  | .cas ss ea => Sys2Proof.Machine.execCas ss ea s
  | .rtm isA rn => Sys2Proof.Machine.execRtm isA rn s
  | .callm ea => Sys2Proof.Machine.execCallm ea s
  | .chkL dn ea => Sys2Proof.Machine.execChkL dn ea s
  | .linkL an => Sys2Proof.Machine.execLinkL an s
  | .extbL dn => Sys2Proof.Machine.execExtbL dn s
  | .mulL ea => Sys2Proof.Machine.execMulL ea s
  | .divL ea => Sys2Proof.Machine.execDivL ea s
  | .trapcc c op => Sys2Proof.Machine.execTrapcc c op s
  | .pack y mem x => Sys2Proof.Machine.execPack y mem x s
  | .unpk y mem x => Sys2Proof.Machine.execUnpk y mem x s
  | .bitField op ea => Sys2Proof.Machine.execBitField op ea s
  | .tst20 sz ea => Sys2Proof.Machine.execTst20 sz ea s
  | .cmpi20 sz ea => Sys2Proof.Machine.execCmpi20 sz ea s
  | .bccL c => Sys2Proof.Machine.execBccL c s

end Sys2Proof.Machine
end

