-- ==== Sys2Proof/Machine/Cycle.lean ====
section
/-! DEFINITION. The instruction cycle (R130) above the dispatch: the words the decoder reads, a word without a
row, and the placing of an instruction where the next step takes it. -/

namespace Sys2Proof.Machine

/-- The next `n` words of the instruction stream, each what its own call gives at that moment; nothing of this
changes the state: the calls are those `fetchExt` makes when the rule runs, each once and in the rule's order (R83,
R134). A word whose fetch fails is shown as a free value: the rule ends at that fetch, and the word only says what the
instruction would have written (DESIGN CHOICE, log entry 9). -/
def State.peek (s : State) : Nat → List Half
  | 0 => []
  | n + 1 =>
    (match s.fetchWordAt s.pc with
      | .ok w => w
      | .error _ => Config.freeExt (s.afterFetch s.pc).draws) ::
    State.peek
      (match fetchExt s with
        | .ok _ t => t
        | .error _ t => { t with pc := s.pc + 2 }) n

/-- MOVE reads its source before it fetches the words of its destination (R134): its size and source. -/
def moveSource : Instr → Option (Size × Ea)
  | .moveB src _ => some (.b, src)
  | .moveW src _ => some (.w, src)
  | .moveL src _ => some (.l, src)
  | _ => none

/-- The state in which MOVE fetches the words of its destination: its source has been read. -/
def State.afterSource (s : State) (sz : Size) (src : Ea) : State :=
  match fetchEA src sz s with
  | .ok _ t => t
  | .error _ t => { t with pc := s.pc + BitVec.ofNat 32 (2 * eaWordCount sz src) }

/-- The words the decoder reads: the opcode register (R36) and four words of program space, as many as the longest
instruction has (R100). They are the first words the rule fetches, but for MOVE's destination, whose words come after
the source is read. -/
def State.instrWords (s : State) : List Half :=
  let ws := s.opcode :: s.started.peek 4
  match decode s.cfg.model ws with
  | .error _ => ws
  | .ok (i, _) =>
    match moveSource i with
    | none => ws
    | some (sz, src) =>
      let n := eaWordCount sz src
      s.opcode :: (s.started.peek n ++ (s.started.afterSource sz src).peek (4 - n))

/-- The instruction the next step decodes (R116). -/
def State.fetched (s : State) : Except DecodeError (Instr × List Half) := decode s.cfg.model s.instrWords

/-- One step of a running core (R130, R132): refused under trace (R131); a word with no row is illegal (R117;
lines A and F have their rows); else the instruction. -/
def runStep (s : State) : Outcome :=
  if s.traced then .refused .trace
  else
    match s.fetched with
    | .error _ => cycle [] (raise .illegalInstruction) s
    | .ok (i, _) => exec i s

/-- One step: nothing happens unless the core runs (R490). -/
def stepBody (s : State) : Outcome := if s.run = .running then runStep s else .next s

/-- Store words at ascending addresses of a space. -/
def State.putWords (s : State) (fc : FC) (a : Word) : List Half → State
  | [] => s
  | w :: ws => (s.putBytes fc a (w.setWidth 32) 2).putWords fc (a + 2) ws

/-- An instruction placed where the next step takes it: its first word in the opcode register, all its words in
program space from `pc` on (log entry 12). -/
def State.placeWords (s : State) (ws : List Half) : State :=
  { s.putWords s.progFC s.pc ws with opcode := ws.headD 0 }

end Sys2Proof.Machine
end

