-- ==== Sys2Proof/Machine/Step.lean ====
section
/-! DEFINITION. The step of the machine, and the state in which the next step runs a given instruction. -/

namespace Sys2Proof.Machine

/-- `step()` (R130, R490). -/
def step (s : State) : Host.Outcome State Fault Refusal := stepBody s

/-- `s` with the instruction of a table number where `step` takes its next instruction. -/
def State.withFetchWord (s : State) (nbits w : Nat) : State := s.placeWords (tableWords nbits w)

end Sys2Proof.Machine
end

