-- ==== Sys2Proof/Safety.lean ====
section
/-! DEFINITION. The terms statements are made in: the invariant of the model, when the words and operands of an
instruction can be fetched, read and stored, and the state in which its rule stands after each of them. -/

namespace Sys2Proof.Machine

/-- The invariant every step keeps: memory has its canonical form, and the status register has no bit that
does not exist on the model (R39: "forced to zero on every write"). -/
structure State.Inv (s : State) : Prop where
  mem_wf : Memory.wf s.mem
  sr_masked : s.sr &&& s.cfg.model.srMask = s.sr

/-- The prefetch is coherent: the opcode register is the word of program space at an even `pc` (R105, R130). -/
abbrev State.Prefetched (s : State) : Prop := s.fetchWordAt s.pc = .ok s.opcode

/-- The word at an address can be fetched, from plain memory (R78). -/
def State.fetchable (s : State) (a : Word) : Bool := !odd a && s.cfg.mem.accepts .read s.progFC a 2

/-- The next `n` extension words can be fetched (R104). -/
def State.canFetch (s : State) (n : Nat) : Bool :=
  (List.range n).all fun k => s.fetchable (s.pc + BitVec.ofNat 32 (2 * k))

/-- `pc` after `n` extension words (R104). -/
def State.skip (s : State) (n : Nat) : State := { s with pc := s.pc + BitVec.ofNat 32 (2 * n) }

/-- `CalcEA` ends without an exception or a refusal in this state (R168). -/
def State.eaReady (s : State) (ea : Ea) (sz : Size) : Bool :=
  s.canFetch (eaWordCount sz ea) && !(s.cfg.model.is20 && refusedBrief ea)

/-- The location `CalcEA` gives in this state (R151). -/
def State.eaLoc (s : State) (ea : Ea) (sz : Size) : Loc := s.locate ea sz s.pc

/-- The state after `CalcEA`: extension words fetched, side effect applied (R151, R166). -/
def State.afterEA (s : State) (ea : Ea) (sz : Size) : State := (s.skip (eaWordCount sz ea)).sideEffect ea sz

/-- The value of a location, if it can be read (R164): a word or long only at an even address (R73), and only
where the host serves the access from its bytes (R71). -/
def State.valueAt (s : State) (loc : Loc) (sz : Size) : Option Word :=
  match loc with
  | .dreg n => some (sz.trunc (s.getD n))
  | .areg n => some (sz.trunc (s.getA n))
  | .mem fc a => if (sz = .b ∨ odd a = false) ∧ s.cfg.mem.accepts .read fc a sz.bytes = true
      then some (s.bytesAt fc a sz.bytes) else none
  | .imm v => some v

/-- A value can be written to a location (R165): a word or long only at an even address (R73), and only where the
host accepts the access (R72). -/
def State.canStore (s : State) (loc : Loc) (sz : Size) : Bool :=
  match loc with
  | .mem fc a => (decide (sz = .b) || !odd a) && s.cfg.mem.accepts .write fc a sz.bytes
  | _ => true

/-- The state after a value is written to a location (R165). -/
def State.stored (s : State) (loc : Loc) (sz : Size) (v : Word) : State :=
  match loc with
  | .dreg n => s.setDSized sz n v
  | .areg n => s.setA n (sz.sext v)
  | .mem fc a => s.putBytes fc a v sz.bytes
  | .imm _ => s

/-- The value of an effective address, if it can be computed and read. -/
def State.operand (s : State) (ea : Ea) (sz : Size) : Option Word := (s.afterEA ea sz).valueAt (s.eaLoc ea sz) sz

/-- The state after several values are written to one space, in order. -/
def State.storedAll (s : State) (fc : FC) (sz : Size) : List (Word × Word) → State
  | [] => s
  | p :: ps => (s.stored (.mem fc p.1) sz p.2).storedAll fc sz ps

/-- Read a general register (R412). -/
def State.getG (s : State) : GReg → Word
  | .d n => s.getD n
  | .a n => s.getA n

/-- Write all 32 bits of a general register (R414). -/
def State.setG (s : State) (r : GReg) (v : Word) : State :=
  match r with
  | .d n => s.setD n v
  | .a n => s.setA n v

/-- General registers written in order. -/
def State.setAllG (s : State) : List (GReg × Word) → State
  | [] => s
  | p :: ps => (s.setG p.1 p.2).setAllG ps

/-- A long can be pushed on the active stack. -/
def State.canPush (s : State) : Bool := s.canStore (.mem s.dataFC (s.getSP - 4)) .l

/-- The state after a long is pushed on the active stack: A7 is 4 lower and the long is at the new A7. -/
def State.pushed (s : State) (v : Word) : State :=
  (s.setSP (s.getSP - 4)).stored (.mem s.dataFC (s.getSP - 4)) .l v

/-- `sext_32` of a branch displacement (R370). -/
def branchOffset : BranchDisp → Word
  | .short b => sext8 b
  | .word w => sext16 w

/-- The extension words of a branch (R111). -/
def branchWords : BranchDisp → Nat
  | .short _ => 0
  | .word _ => 1

/-- The count of a register shift (R310). -/
def State.shiftCount (s : State) : ShiftCount → Nat
  | .quick q => if q = 0 then 8 else q.val
  | .reg n => (s.getD n).toNat % 64

/-- The privileged rows of R119, by model. -/
def privilegedRow (m : Model) : Instr → Bool
  | .andiSr _ => true
  | .eoriSr _ => true
  | .oriSr _ => true
  | .moveToSr _ => true
  | .moveFromSr _ => m.atLeast10
  | .moveToUsp _ => true
  | .moveFromUsp _ => true
  | .movecFrom _ _ => true
  | .movecTo _ _ => true
  | .moves _ _ _ _ => true
  | .reset => true
  | .rte => true
  | .stop _ => true
  | _ => false

/-- A value's signed reading at a size (R12). -/
def signedAt (sz : Size) (v : Word) : Int := (sz.sext v).toInt

/-- The number two decimal digits stand for (R360). -/
def decimalValue (b : Byte) : Nat := 10 * (b.toNat / 16) + b.toNat % 16

/-- A byte of two decimal digits (R368). -/
def validDecimal (b : Byte) : Bool := decide (b.toNat / 16 ≤ 9 ∧ b.toNat % 16 ≤ 9)

/-- The patterns that only the MC68020 has (R120), with their mnemonics, but for the 32-bit branches. -/
def mc68020Row : Instr → Option String
  | .chk2Cmp2 _ _ => some "CHK2_CMP2"
  | .cas _ _ => some "CAS"
  | .rtm _ _ => some "RTM"
  | .callm _ => some "CALLM"
  | .chkL _ _ => some "CHK.L"
  | .linkL _ => some "LINK.L"
  | .extbL _ => some "EXTB.L"
  | .mulL _ => some "MULS.L_MULU.L"
  | .divL _ => some "DIVS.L_DIVU.L"
  | .trapcc _ _ => some "TRAPcc"
  | .pack _ _ _ => some "PACK"
  | .unpk _ _ _ => some "UNPK"
  | .bitField _ _ => some "BFxxx"
  | .tst20 _ _ => some "TST__MC68020_modes"
  | .cmpi20 _ _ => some "CMPI__MC68020_modes"
  | _ => none

/-- Plain memory (R76): every access succeeds and is served from the bytes. -/
abbrev State.plainHost (s : State) : Prop :=
  s.cfg.mem.holes = [] ∧ s.cfg.mem.top = .wrap ∧ s.cfg.mem.rom = [] ∧ s.cfg.mem.own = []

/-- The state in which `Deliver` looks at the stack: supervisor mode, trace bits clear (R458 (b)). -/
def State.entered (s : State) : State := s.setSR ((s.sr ||| 0x2000#16) &&& ~~~0xC000#16)

/-- The new stack pointer of a delivery (R458). -/
def State.frameBase (s : State) (e : Exc) : Word :=
  s.entered.getSP - BitVec.ofNat 32 (frameBytes (e.format s.cfg.model))

/-- Whether the frame can be written, and the state after the last of its writes (R454, R455, R458 (d)). -/
def State.framed (s : State) (e : Exc) (o : Origin) (ia : Word) : Bool × State :=
  s.entered.putFields
    (frameFields (s.frameBase e) s.sr (e.stackedPC o ia s.pc) (e.format s.cfg.model) e.vector ia)

/-- The value of a stack register by its name (R32). -/
def State.stackReg (s : State) : StackReg → Word
  | .usp => s.usp
  | .isp => s.isp
  | .msp => s.msp

/-! ## What each instruction may write (R128: "each instruction rule names every state field it writes; a
model writes no other") -/

/-- The registers and memory bytes an instruction's rule writes, with the expression of its rule for each
address. -/
def instrWrites (s : State) : Instr → List Target
  | .ori sz _ ea => s.eaTargets ea sz
  | .andi sz _ ea => s.eaTargets ea sz
  | .subi sz _ ea => s.eaTargets ea sz
  | .addi sz _ ea => s.eaTargets ea sz
  | .eori sz _ ea => s.eaTargets ea sz
  | .cmpi _ _ ea => eaSideTargets ea
  | .btstI _ ea => eaSideTargets ea
  | .bchgI _ ea => s.eaTargets ea (bitSize ea)
  | .bclrI _ ea => s.eaTargets ea (bitSize ea)
  | .bsetI _ ea => s.eaTargets ea (bitSize ea)
  | .btstD _ ea => eaSideTargets ea
  | .bchgD _ ea => s.eaTargets ea (bitSize ea)
  | .bclrD _ ea => s.eaTargets ea (bitSize ea)
  | .bsetD _ ea => s.eaTargets ea (bitSize ea)
  | .moves sz toMem r ea => eaSideTargets ea ++
      (if toMem then [.mem s.dfc (s.locate ea sz s.pc).addr sz.bytes] else gregTargets r)
  | .movepLoadW dx _ _ => [.d dx]
  | .movepLoadL dx _ _ => [.d dx]
  | .movepStoreW _ ay d => alternateTargets s.dataFC (s.getA ay + sext16 d) 2
  | .movepStoreL _ ay d => alternateTargets s.dataFC (s.getA ay + sext16 d) 4
  | .moveB src dst => s.pairTargets src dst .b
  | .moveL src dst => s.pairTargets src dst .l
  | .moveW src dst => s.pairTargets src dst .w
  | .moveaL an src => eaSideTargets src ++ [.a an]
  | .moveaW an src => eaSideTargets src ++ [.a an]
  | .negx sz ea => s.eaTargets ea sz
  | .moveFromSr ea => s.eaTargets ea .w
  | .chk _ ea => eaSideTargets ea
  | .lea an _ => [.a an]
  | .clr sz ea => s.eaTargets ea sz
  | .moveFromCcr ea => s.eaTargets ea .w
  | .neg sz ea => s.eaTargets ea sz
  | .moveToCcr ea => eaSideTargets ea
  | .notEa sz ea => s.eaTargets ea sz
  | .moveToSr ea => eaSideTargets ea
  | .nbcd ea => s.eaTargets ea .b
  | .swap dn => [.d dn]
  | .pea _ => s.pushTargets
  | .extW dn => [.d dn]
  | .extL dn => [.d dn]
  | .movemToMem sz mask ea =>
      [.mem (s.locate ea sz s.pc).fc (s.locate ea sz s.pc).addr (maskBytes sz mask)]
  | .movemToPredec sz mask an =>
      [.a an, .mem s.dataFC (s.getA an - BitVec.ofNat 32 (maskBytes sz mask)) (maskBytes sz mask)]
  | .tst _ ea => eaSideTargets ea
  | .tas ea => s.eaTargets ea .b
  | .movemFromMem _ mask _ => (maskRegs mask).flatMap gregTargets
  | .movemFromPostinc _ mask an => (maskRegs mask).flatMap gregTargets ++ [.a an]
  | .link an _ => s.pushTargets ++ [.a an]
  | .unlk an => [.a 7, .a an]
  | .moveFromUsp an => [.a an]
  | .rte => [.a 7, .pc]
  | .rtd _ => [.a 7, .pc]
  | .rts => [.a 7, .pc]
  | .rtr => [.a 7, .pc]
  | .movecFrom r _ => gregTargets r
  | .jsr _ => s.pushTargets ++ [.pc]
  | .jmp _ => [.pc]
  | .addq sz _ ea => s.eaTargets ea sz
  | .subq sz _ ea => s.eaTargets ea sz
  | .dbcc _ dn _ => [.d dn, .pc]
  | .scc _ ea => s.eaTargets ea .b
  | .bra _ => [.pc]
  | .bsr _ => s.pushTargets ++ [.pc]
  | .bcc _ _ => [.pc]
  | .moveq dn _ => [.d dn]
  | .orToReg _ dn ea => eaSideTargets ea ++ [.d dn]
  | .orToMem sz _ ea => s.eaTargets ea sz
  | .divu dn ea => eaSideTargets ea ++ [.d dn]
  | .divs dn ea => eaSideTargets ea ++ [.d dn]
  | .sbcdReg dx _ => [.d dx]
  | .sbcdMem ax ay => s.pairTargets (.predec ay) (.predec ax) .b
  | .subToReg _ dn ea => eaSideTargets ea ++ [.d dn]
  | .subToMem sz _ ea => s.eaTargets ea sz
  | .suba _ an ea => eaSideTargets ea ++ [.a an]
  | .subxReg _ dx _ => [.d dx]
  | .subxMem sz ax ay => s.pairTargets (.predec ay) (.predec ax) sz
  | .cmp _ _ ea => eaSideTargets ea
  | .cmpa _ _ ea => eaSideTargets ea
  | .eor sz _ ea => s.eaTargets ea sz
  | .cmpm _ ax ay => [.a ay, .a ax]
  | .andToReg _ dn ea => eaSideTargets ea ++ [.d dn]
  | .andToMem sz _ ea => s.eaTargets ea sz
  | .mulu dn ea => eaSideTargets ea ++ [.d dn]
  | .muls dn ea => eaSideTargets ea ++ [.d dn]
  | .abcdReg dx _ => [.d dx]
  | .abcdMem ax ay => s.pairTargets (.predec ay) (.predec ax) .b
  | .exgDD dx dy => [.d dx, .d dy]
  | .exgAA ax ay => [.a ax, .a ay]
  | .exgDA dx ay => [.d dx, .a ay]
  | .addToReg _ dn ea => eaSideTargets ea ++ [.d dn]
  | .addToMem sz _ ea => s.eaTargets ea sz
  | .adda _ an ea => eaSideTargets ea ++ [.a an]
  | .addxReg _ dx _ => [.d dx]
  | .addxMem sz ax ay => s.pairTargets (.predec ay) (.predec ax) sz
  | .asrReg _ _ dn => [.d dn]
  | .aslReg _ _ dn => [.d dn]
  | .asrMem ea => s.eaTargets ea .w
  | .aslMem ea => s.eaTargets ea .w
  | .lsrReg _ _ dn => [.d dn]
  | .lslReg _ _ dn => [.d dn]
  | .lsrMem ea => s.eaTargets ea .w
  | .lslMem ea => s.eaTargets ea .w
  | .roxrReg _ _ dn => [.d dn]
  | .roxlReg _ _ dn => [.d dn]
  | .roxrMem ea => s.eaTargets ea .w
  | .roxlMem ea => s.eaTargets ea .w
  | .rorReg _ _ dn => [.d dn]
  | .rolReg _ _ dn => [.d dn]
  | .rorMem ea => s.eaTargets ea .w
  | .rolMem ea => s.eaTargets ea .w
  | .bccL c => if c = .f then s.pushTargets ++ [.pc] else [.pc]
  | _ => []

/-- A stack register written under its own name: MOVE to USP and MOVEC (R410, R45). -/
def writesStackReg (r : StackReg) : Instr → Bool
  | .moveToUsp _ => decide (r = .usp)
  | .movecTo _ c =>
    match r with
    | .usp => decide (controlRegOf c = some .usp)
    | .isp => decide (controlRegOf c = some .isp)
    | .msp => decide (controlRegOf c = some .msp)
  | _ => false

/-- The rows that write the system byte of SR (R191, R468). -/
def writesSystemByte : Instr → Bool
  | .oriSr _ => true
  | .andiSr _ => true
  | .eoriSr _ => true
  | .moveToSr _ => true
  | .stop _ => true
  | .rte => true
  | _ => false

/-- The rows that write a control register (R414). -/
def writesControl : Instr → Bool
  | .movecTo _ _ => true
  | _ => false

/-- The flags an instruction writes, as a mask of the CCR (R194): X = 16, N = 8, Z = 4, V = 2, C = 1. -/
def flagMask : Instr → Half
  | .oriCcr _ => 31 | .oriSr _ => 31 | .andiCcr _ => 31 | .andiSr _ => 31 | .eoriCcr _ => 31 | .eoriSr _ => 31
  | .moveToCcr _ => 31 | .moveToSr _ => 31 | .rte => 31 | .rtr => 31 | .stop _ => 31
  | .addToReg _ _ _ => 31 | .addToMem _ _ _ => 31 | .addi _ _ _ => 31 | .addxReg _ _ _ => 31
  | .addxMem _ _ _ => 31 | .subToReg _ _ _ => 31 | .subToMem _ _ _ => 31 | .subi _ _ _ => 31
  | .subxReg _ _ _ => 31 | .subxMem _ _ _ => 31 | .neg _ _ => 31 | .negx _ _ => 31
  | .addq _ _ ea => match ea with | .areg _ => 0 | _ => 31
  | .subq _ _ ea => match ea with | .areg _ => 0 | _ => 31
  | .abcdReg _ _ => 31 | .abcdMem _ _ => 31 | .sbcdReg _ _ => 31 | .sbcdMem _ _ => 31 | .nbcd _ => 31
  | .asrReg _ _ _ => 31 | .aslReg _ _ _ => 31 | .asrMem _ => 31 | .aslMem _ => 31 | .lsrReg _ _ _ => 31
  | .lslReg _ _ _ => 31 | .lsrMem _ => 31 | .lslMem _ => 31 | .roxrReg _ _ _ => 31 | .roxlReg _ _ _ => 31
  | .roxrMem _ => 31 | .roxlMem _ => 31
  | .rorReg _ _ _ => 15 | .rolReg _ _ _ => 15 | .rorMem _ => 15 | .rolMem _ => 15
  | .cmp _ _ _ => 15 | .cmpa _ _ _ => 15 | .cmpi _ _ _ => 15 | .cmpm _ _ _ => 15 | .clr _ _ => 15
  | .andToReg _ _ _ => 15 | .andToMem _ _ _ => 15 | .andi _ _ _ => 15 | .orToReg _ _ _ => 15
  | .orToMem _ _ _ => 15 | .ori _ _ _ => 15 | .eor _ _ _ => 15 | .eori _ _ _ => 15 | .notEa _ _ => 15
  | .moveB _ _ => 15 | .moveW _ _ => 15 | .moveL _ _ => 15 | .moveq _ _ => 15 | .tst _ _ => 15
  | .extW _ => 15 | .extL _ => 15 | .swap _ => 15 | .mulu _ _ => 15 | .muls _ _ => 15 | .divu _ _ => 15
  | .divs _ _ => 15 | .chk _ _ => 15 | .tas _ => 15
  | .btstI _ _ => 4 | .bchgI _ _ => 4 | .bclrI _ _ => 4 | .bsetI _ _ => 4 | .btstD _ _ => 4 | .bchgD _ _ => 4
  | .bclrD _ _ => 4 | .bsetD _ _ => 4
  | _ => 0

/-- Registers and memory outside a write set are the same in two states. `own` says which stack register may
change under its own name; A7 in the write set is the active stack pointer of `s` (R33). -/
structure State.Frame (s u : State) (w : List Target) (own : StackReg → Bool) : Prop where
  data : ∀ n : RegNo, .d n ∉ w → u.getD n = s.getD n
  address : ∀ n : RegNo, n ≠ 7 → .a n ∉ w → u.getA n = s.getA n
  stack : ∀ r : StackReg, own r = false → (r = s.activeStack → .a 7 ∉ w) → u.stackReg r = s.stackReg r
  memory : ∀ (fc : FC) (a : Word),
    (∀ fc' a' n, .mem fc' a' n ∈ w → ∀ k < n, s.cfg.mem.key fc a ≠ s.cfg.mem.key fc' (a' + BitVec.ofNat 32 k)) →
    u.byteAt fc a = s.byteAt fc a

/-- BKPT with a callback hands the state to the host (R440); no other instruction does. -/
def handsOver (s : State) : Instr → Bool
  | .bkpt _ => s.cfg.bkptPresent
  | _ => false

/-- The next step is the core's own: it hands the state to no callback. -/
abbrev State.ownStep (s : State) : Prop := ∀ i rest, s.fetched = .ok (i, rest) → handsOver s i = false

/-! ## The first access of an instruction (R132, R134) -/

/-- The effective addresses of an instruction, in the order of its rule. -/
def effectiveAddresses : Instr → List Ea
  | .ori _ _ ea => [ea] | .andi _ _ ea => [ea] | .subi _ _ ea => [ea] | .addi _ _ ea => [ea] | .eori _ _ ea => [ea]
  | .cmpi _ _ ea => [ea] | .btstI _ ea => [ea] | .bchgI _ ea => [ea] | .bclrI _ ea => [ea] | .bsetI _ ea => [ea]
  | .btstD _ ea => [ea] | .bchgD _ ea => [ea] | .bclrD _ ea => [ea] | .bsetD _ ea => [ea] | .moves _ _ _ ea => [ea]
  | .moveB src dst => [src, dst] | .moveW src dst => [src, dst] | .moveL src dst => [src, dst]
  | .moveaW _ src => [src] | .moveaL _ src => [src] | .negx _ ea => [ea] | .moveFromSr ea => [ea] | .chk _ ea => [ea]
  | .lea _ ea => [ea] | .clr _ ea => [ea] | .moveFromCcr ea => [ea] | .neg _ ea => [ea] | .moveToCcr ea => [ea]
  | .notEa _ ea => [ea] | .moveToSr ea => [ea] | .nbcd ea => [ea] | .pea ea => [ea] | .movemToMem _ _ ea => [ea]
  | .tst _ ea => [ea] | .tas ea => [ea] | .movemFromMem _ _ ea => [ea] | .jsr ea => [ea] | .jmp ea => [ea]
  | .addq _ _ ea => [ea] | .subq _ _ ea => [ea] | .scc _ ea => [ea]
  | .orToReg _ _ ea => [ea] | .orToMem _ _ ea => [ea] | .divu _ ea => [ea] | .divs _ ea => [ea]
  | .subToReg _ _ ea => [ea] | .subToMem _ _ ea => [ea] | .suba _ _ ea => [ea] | .cmp _ _ ea => [ea]
  | .cmpa _ _ ea => [ea] | .eor _ _ ea => [ea] | .andToReg _ _ ea => [ea] | .andToMem _ _ ea => [ea]
  | .mulu _ ea => [ea] | .muls _ ea => [ea] | .addToReg _ _ ea => [ea] | .addToMem _ _ ea => [ea]
  | .adda _ _ ea => [ea] | .asrMem ea => [ea] | .aslMem ea => [ea] | .lsrMem ea => [ea] | .lslMem ea => [ea]
  | .roxrMem ea => [ea] | .roxlMem ea => [ea] | .rorMem ea => [ea] | .rolMem ea => [ea]
  | .sbcdMem ax ay => [.predec ay, .predec ax] | .abcdMem ax ay => [.predec ay, .predec ax]
  | .subxMem _ ax ay => [.predec ay, .predec ax] | .addxMem _ ax ay => [.predec ay, .predec ax]
  | .cmpm _ ax ay => [.postinc ay, .postinc ax]
  | _ => []

/-- An access of a size to a location, if it is in memory. -/
def Loc.access (it : Intent) (sz : Size) : Loc → Option (Intent × FC × Word × Nat)
  | .mem fc a => some (it, fc, a, sz.bytes)
  | _ => none

/-- The first access of the rule to an effective address that follows `words` extension words of its own. -/
def State.eaAccess (s : State) (it : Intent) (words : Nat) (ea : Ea) (sz : Size) : Option (Intent × FC × Word × Nat) :=
  ((s.started.skip words).eaLoc ea sz).access it sz

/-- The words of an immediate (R109). -/
def immWords (sz : Size) : Nat := if sz = .l then 2 else 1

/-- The first access of MOVE: the read of its source, or the write of its destination if the source is no memory. -/
def State.moveAccess (s : State) (sz : Size) (src dst : Ea) : Option (Intent × FC × Word × Nat) :=
  match s.eaAccess .read 0 src sz with
  | some x => some x
  | none => ((s.started.afterEA src sz).eaLoc dst sz).access .write sz

/-- The first operand access of an instruction's rule: its intent, space, address and width. -/
def firstAccess (s : State) : Instr → Option (Intent × FC × Word × Nat)
  | .ori sz _ ea => s.eaAccess .read (immWords sz) ea sz
  | .andi sz _ ea => s.eaAccess .read (immWords sz) ea sz
  | .subi sz _ ea => s.eaAccess .read (immWords sz) ea sz
  | .addi sz _ ea => s.eaAccess .read (immWords sz) ea sz
  | .eori sz _ ea => s.eaAccess .read (immWords sz) ea sz
  | .cmpi sz _ ea => s.eaAccess .read (immWords sz) ea sz
  | .btstI _ ea => s.eaAccess .read 1 ea (bitSize ea)
  | .bchgI _ ea => s.eaAccess .read 1 ea (bitSize ea)
  | .bclrI _ ea => s.eaAccess .read 1 ea (bitSize ea)
  | .bsetI _ ea => s.eaAccess .read 1 ea (bitSize ea)
  | .btstD _ ea => s.eaAccess .read 0 ea (bitSize ea)
  | .bchgD _ ea => s.eaAccess .read 0 ea (bitSize ea)
  | .bclrD _ ea => s.eaAccess .read 0 ea (bitSize ea)
  | .bsetD _ ea => s.eaAccess .read 0 ea (bitSize ea)
  | .moves sz toMem _ ea =>
    let a := ((s.started.skip 1).eaLoc ea sz).addr
    if toMem then some (.write, s.dfc, a, sz.bytes) else some (.read, s.sfc, a, sz.bytes)
  | .movepLoadW _ ay d => some (.read, s.dataFC, s.getA ay + sext16 d, 1)
  | .movepLoadL _ ay d => some (.read, s.dataFC, s.getA ay + sext16 d, 1)
  | .movepStoreW _ ay d => some (.write, s.dataFC, s.getA ay + sext16 d, 1)
  | .movepStoreL _ ay d => some (.write, s.dataFC, s.getA ay + sext16 d, 1)
  | .moveB src dst => s.moveAccess .b src dst
  | .moveL src dst => s.moveAccess .l src dst
  | .moveW src dst => s.moveAccess .w src dst
  | .moveaL _ src => s.eaAccess .read 0 src .l
  | .moveaW _ src => s.eaAccess .read 0 src .w
  | .negx sz ea => s.eaAccess .read 0 ea sz
  | .moveFromSr ea => s.eaAccess .write 0 ea .w
  | .chk _ ea => s.eaAccess .read 0 ea .w
  | .clr sz ea => s.eaAccess .write 0 ea sz
  | .moveFromCcr ea => s.eaAccess .write 0 ea .w
  | .neg sz ea => s.eaAccess .read 0 ea sz
  | .moveToCcr ea => s.eaAccess .read 0 ea .w
  | .notEa sz ea => s.eaAccess .read 0 ea sz
  | .moveToSr ea => s.eaAccess .read 0 ea .w
  | .nbcd ea => s.eaAccess .read 0 ea .b
  | .pea _ => some (.write, s.dataFC, s.getSP - 4, 4)
  | .movemToMem sz mask ea => if maskRegs mask = [] then none else s.eaAccess .write 1 ea sz
  | .movemToPredec sz mask an =>
    if maskRegs mask = [] then none else some (.write, s.dataFC, s.getA an - BitVec.ofNat 32 sz.bytes, sz.bytes)
  | .tst sz ea => s.eaAccess .read 0 ea sz
  | .tas ea => s.eaAccess .read 0 ea .b
  | .movemFromMem sz mask ea => if maskRegs mask = [] then none else s.eaAccess .read 1 ea sz
  | .movemFromPostinc sz mask an => if maskRegs mask = [] then none else some (.read, s.dataFC, s.getA an, sz.bytes)
  | .link _ _ => some (.write, s.dataFC, s.getSP - 4, 4)
  | .unlk an => some (.read, s.dataFC, s.getA an, 4)
  | .rte => some (.read, 5, s.getSP, 2)
  | .rtd _ => some (.read, s.dataFC, s.getSP, 4)
  | .rts => some (.read, s.dataFC, s.getSP, 4)
  | .rtr => some (.read, s.dataFC, s.getSP, 2)
  | .jsr _ => some (.write, s.dataFC, s.getSP - 4, 4)
  | .addq sz _ ea => s.eaAccess .read 0 ea sz
  | .subq sz _ ea => s.eaAccess .read 0 ea sz
  | .scc _ ea => s.eaAccess .write 0 ea .b
  | .bsr _ => some (.write, s.dataFC, s.getSP - 4, 4)
  | .orToReg sz _ ea => s.eaAccess .read 0 ea sz
  | .orToMem sz _ ea => s.eaAccess .read 0 ea sz
  | .divu _ ea => s.eaAccess .read 0 ea .w
  | .divs _ ea => s.eaAccess .read 0 ea .w
  | .sbcdMem _ ay => s.eaAccess .read 0 (.predec ay) .b
  | .subToReg sz _ ea => s.eaAccess .read 0 ea sz
  | .subToMem sz _ ea => s.eaAccess .read 0 ea sz
  | .suba sz _ ea => s.eaAccess .read 0 ea sz
  | .subxMem sz _ ay => s.eaAccess .read 0 (.predec ay) sz
  | .cmp sz _ ea => s.eaAccess .read 0 ea sz
  | .cmpa sz _ ea => s.eaAccess .read 0 ea sz
  | .eor sz _ ea => s.eaAccess .read 0 ea sz
  | .cmpm sz _ ay => s.eaAccess .read 0 (.postinc ay) sz
  | .andToReg sz _ ea => s.eaAccess .read 0 ea sz
  | .andToMem sz _ ea => s.eaAccess .read 0 ea sz
  | .mulu _ ea => s.eaAccess .read 0 ea .w
  | .muls _ ea => s.eaAccess .read 0 ea .w
  | .abcdMem _ ay => s.eaAccess .read 0 (.predec ay) .b
  | .addToReg sz _ ea => s.eaAccess .read 0 ea sz
  | .addToMem sz _ ea => s.eaAccess .read 0 ea sz
  | .adda sz _ ea => s.eaAccess .read 0 ea sz
  | .addxMem sz _ ay => s.eaAccess .read 0 (.predec ay) sz
  | .asrMem ea => s.eaAccess .read 0 ea .w
  | .aslMem ea => s.eaAccess .read 0 ea .w
  | .lsrMem ea => s.eaAccess .read 0 ea .w
  | .lslMem ea => s.eaAccess .read 0 ea .w
  | .roxrMem ea => s.eaAccess .read 0 ea .w
  | .roxlMem ea => s.eaAccess .read 0 ea .w
  | .rorMem ea => s.eaAccess .read 0 ea .w
  | .rolMem ea => s.eaAccess .read 0 ea .w
  | _ => none

end Sys2Proof.Machine
end

