-- ==== Sys2Proof/Certificates/Slice0/Obligations.lean ====
section
/-! DEFINITION. The statements for the provers. A statement of an instruction's result says that `exec` answers a
next state: `finish true s.pc u` is the end of the step (R130, R105), `u` what the instruction's rule leaves. -/

open Sys2Proof Sys2Proof.Machine

/-! ## Registers and the status register -/

/-- R33: A7 reads and writes the register that S and, on mc68020, M select. R34: a privilege switch by a write of SR shows
the other stack pointer's last value in A7, and a switch back shows the first one's. -/
def Obligations.StackPointers : Prop :=
  (∀ (s : State) (v : Word),
     (s.sr.getLsbD 13 = false → s.getA 7 = s.usp ∧ s.setA 7 v = { s with usp := v }) ∧
     (s.sr.getLsbD 13 = true → s.cfg.model = .mc68020 → s.sr.getLsbD 12 = true →
       s.getA 7 = s.msp ∧ s.setA 7 v = { s with msp := v }) ∧
     (s.sr.getLsbD 13 = true → ¬ (s.cfg.model = .mc68020 ∧ s.sr.getLsbD 12 = true) →
       s.getA 7 = s.isp ∧ s.setA 7 v = { s with isp := v })) ∧
  (∀ (s : State) (user super : Half) (v : Word),
     s.sr.getLsbD 13 = true → user.getLsbD 13 = false → super.getLsbD 13 = true →
     super.getLsbD 12 = s.sr.getLsbD 12 →
     (s.setSR user).getA 7 = s.usp ∧
     ((s.setSR user).setSR super).getA 7 = s.getA 7 ∧
     (((s.setSR user).setA 7 v).setSR super).getA 7 = s.getA 7 ∧
     ((((s.setSR user).setA 7 v).setSR super).setSR user).getA 7 = v)

/-- R39: a write of the status word forces to zero every bit that does not exist on the model. R41: `get_CCR` is the low
byte, whose bits 7:5 are 0 (by the invariant); `set_CCR` writes bits 4:0 of SR, leaves the rest of it, and changes
nothing else. -/
def Obligations.StatusRegister : Prop :=
  (∀ (s : State) (v : Half),
     (s.cfg.model = .mc68000 → s.setSR v = { s with sr := v &&& 0xA71F#16 }) ∧
     (s.cfg.model = .mc68010 → s.setSR v = { s with sr := v &&& 0xA71F#16 }) ∧
     (s.cfg.model = .mc68020 → s.setSR v = { s with sr := v &&& 0xF71F#16 })) ∧
  (∀ (s : State) (v : Byte), s.Inv →
     (∀ i < 8, s.getCCR.getLsbD i = s.sr.getLsbD i) ∧
     (∀ i, 5 ≤ i → s.getCCR.getLsbD i = false) ∧
     (∀ i < 5, (s.setCCR v).sr.getLsbD i = v.getLsbD i) ∧
     (∀ i, 5 ≤ i → (s.setCCR v).sr.getLsbD i = s.sr.getLsbD i) ∧
     (∃ w, s.setCCR v = { s with sr := w }) ∧
     (s.setCCR v).activeStack = s.activeStack)

/-! ## Memory -/

/-- R71: the read primitive, whatever the host answers: from its bytes, or a refusal. R78: instruction fetch reads
program space of the current mode, at an even address, with one call; extension words are fetched the same way. The
clauses about a window of the host's own (the answer `Config.hostReply`, the call counted in `draws`) are the model's
choice, no rule's: DESIGN CHOICE, log entries 2 and 7. -/
def Obligations.MemoryReads : Prop :=
  (∀ (s : State) (fc : FC) (a : Word) (n : Nat), n = 1 ∨ n = 2 ∨ n = 4 →
     ((n ≠ 1 ∧ a.getLsbD 0 = true) → memReadFC fc a n s = .error (.exc .addressError) s) ∧
     (¬ (n ≠ 1 ∧ a.getLsbD 0 = true) → s.cfg.mem.answer .read fc a n = .refused →
       memReadFC fc a n s = .error (.exc .busError) s) ∧
     (¬ (n ≠ 1 ∧ a.getLsbD 0 = true) → s.cfg.mem.answer .read fc a n = .own →
       let r := Config.hostReply s.draws { intent := .read, fc := fc, addr := a, bytes := n, value := 0 }
       memReadFC fc a n s =
         if r.ok then .ok (BitVec.ofNat 32 (r.value.toNat % 2 ^ (8 * n))) { s with draws := s.draws + 1 }
         else .error (.exc .busError) { s with draws := s.draws + 1 }) ∧
     (¬ (n ≠ 1 ∧ a.getLsbD 0 = true) → s.cfg.mem.accepts .read fc a n = true →
       memReadFC fc a n s = .ok (s.bytesAt fc a n) s) ∧
     memRead a n s = memReadFC (if s.sr.getLsbD 13 then 5 else 1) a n s) ∧
  (∀ (s : State) (a : Word),
     let fc : FC := if s.sr.getLsbD 13 then 6 else 2
     (a.getLsbD 0 = true → s.fetchWordAt a = .error .addressError) ∧
     (a.getLsbD 0 = false → s.cfg.mem.answer .read fc a 2 = .refused → s.fetchWordAt a = .error .busError) ∧
     (a.getLsbD 0 = false → s.cfg.mem.accepts .read fc a 2 = true →
       s.fetchWordAt a = .ok ((s.bytesAt fc a 2).setWidth 16)) ∧
     (s.afterFetch a = if a.getLsbD 0 = false ∧ s.cfg.mem.answer .read fc a 2 = .own
       then { s with draws := s.draws + 1 } else s) ∧
     (∀ w, s.fetchWordAt s.pc = .ok w → fetchExt s = .ok () { s.afterFetch s.pc with pc := s.pc + 2 }) ∧
     (∀ e, s.fetchWordAt s.pc = .error e → ∃ k, fetchExt s = .error (.fetch e) { s with draws := k }))

/-- R72, R75, R86 under the model's memory: a write of 1, 2 or 4 bytes that is aligned and accepted succeeds; the
value is read back from the same place, every other byte is as before, and memory keeps its canonical form. A write at an
odd address calls no host; a refused one raises `Bus_error`; an ignored one, and one the host answers on its own, change
no byte (log entry 2). -/
def Obligations.MemoryWriteThenRead : Prop :=
  ∀ (s : State) (fc : FC) (a v : Word) (n : Nat), n = 1 ∨ n = 2 ∨ n = 4 →
    (n ≠ 1 ∧ a.getLsbD 0 = true → memWriteFC fc a n v s = .error (.exc .addressError) s) ∧
    (¬ (n ≠ 1 ∧ a.getLsbD 0 = true) →
      (s.cfg.mem.answer .write fc a n = .refused → memWriteFC fc a n v s = .error (.exc .busError) s) ∧
      (s.cfg.mem.answer .write fc a n = .ignored → memWriteFC fc a n v s = .ok () s) ∧
      (s.cfg.mem.answer .write fc a n = .own →
        let value := BitVec.ofNat 32 (v.toNat % 2 ^ (8 * n))
        let r := Config.hostReply s.draws { intent := .write, fc := fc, addr := a, bytes := n, value := value }
        memWriteFC fc a n v s =
          if r.ok then .ok () { s with draws := s.draws + 1 }
          else .error (.exc .busError) { s with draws := s.draws + 1 }) ∧
      (Memory.wf s.mem → s.cfg.mem.accepts .write fc a n = true →
        ∃ t, memWriteFC fc a n v s = .ok () t ∧ t.bytesAt fc a n = BitVec.ofNat 32 (v.toNat % 2 ^ (8 * n)) ∧
          (∃ m, t = { s with mem := m }) ∧ Memory.wf t.mem ∧
          ∀ (fc' : FC) (b : Word),
            (∀ k < n, s.cfg.mem.key fc' b ≠ s.cfg.mem.key fc (a + BitVec.ofNat 32 k)) →
            t.byteAt fc' b = s.byteAt fc' b))

/-- R75: words and longs are big-endian, in data reads, data writes and instruction fetch. -/
def Obligations.BigEndian : Prop :=
  ∀ (s : State) (fc : FC) (a v : Word), Memory.wf s.mem →
    s.bytesAt fc a 2 = (s.byteAt fc a ++ s.byteAt fc (a + 1)).setWidth 32 ∧
    s.bytesAt fc a 4 = s.byteAt fc a ++ s.byteAt fc (a + 1) ++ s.byteAt fc (a + 2) ++ s.byteAt fc (a + 3) ∧
    (s.putBytes fc a v 2).byteAt fc a = v.extractLsb' 8 8 ∧
    (s.putBytes fc a v 2).byteAt fc (a + 1) = v.extractLsb' 0 8 ∧
    (s.putBytes fc a v 4).byteAt fc a = v.extractLsb' 24 8 ∧
    (s.putBytes fc a v 4).byteAt fc (a + 1) = v.extractLsb' 16 8 ∧
    (s.putBytes fc a v 4).byteAt fc (a + 2) = v.extractLsb' 8 8 ∧
    (s.putBytes fc a v 4).byteAt fc (a + 3) = v.extractLsb' 0 8 ∧
    ∀ w, s.fetchable a = true → s.fetchWordAt a = .ok w → w = s.byteAt s.progFC a ++ s.byteAt s.progFC (a + 1)

/-! ## Addressing modes -/

/-- R152 to R163: the location and the side effect of each mode, with its extension word fetched; the word's value
is the decoder's (R107), a failed fetch ends the computation, and mc68020 refuses a brief word with a scale or
with bit 8 set. -/
def Obligations.AddressingModes : Prop :=
  ∀ (s : State) (sz : Size) (n : RegNo) (d : Half) (x : Brief) (l : Word),
    let step : Word := if n = 7 ∧ sz = .b then 2 else BitVec.ofNat 32 sz.bytes
    let fc : FC := if s.sr.getLsbD 13 then 5 else 1
    let pfc : FC := if s.sr.getLsbD 13 then 6 else 2
    let reg := if x.isA then s.getA x.reg else s.getD x.reg
    let idx : Word := if x.long then reg else (reg.setWidth 16).signExtend 32
    let t := { s with pc := s.pc + 2 }
    let failed (u : State) : State := { u.afterFetch u.pc with draws := (u.afterFetch u.pc).draws + 1 }
    calcEA (.dreg n) sz s = .ok (.dreg n) s ∧
    calcEA (.areg n) sz s = .ok (.areg n) s ∧
    calcEA (.ind n) sz s = .ok (.mem fc (s.getA n)) s ∧
    calcEA (.postinc n) sz s = .ok (.mem fc (s.getA n)) (s.setA n (s.getA n + step)) ∧
    calcEA (.predec n) sz s = .ok (.mem fc (s.getA n - step)) (s.setA n (s.getA n - step)) ∧
    (s.fetchable s.pc = true →
      calcEA (.disp n d) sz s = .ok (.mem fc (s.getA n + d.signExtend 32)) t ∧
      calcEA (.absW d) sz s = .ok (.mem fc (d.signExtend 32)) t ∧
      calcEA (.pcDisp d) sz s = .ok (.mem pfc (s.pc + d.signExtend 32)) t ∧
      (s.cfg.model ≠ .mc68020 ∨ (x.scale = 0 ∧ x.full = false) →
        calcEA (.index n x) sz s = .ok (.mem fc (s.getA n + idx + x.disp.signExtend 32)) t ∧
        calcEA (.pcIndex x) sz s = .ok (.mem pfc (s.pc + idx + x.disp.signExtend 32)) t) ∧
      (s.cfg.model = .mc68020 → (x.scale ≠ 0 ∨ x.full = true) →
        calcEA (.index n x) sz s = .error (.refuse .extensionWord68020) t ∧
        calcEA (.pcIndex x) sz s = .error (.refuse .extensionWord68020) t)) ∧
    (s.fetchable s.pc = true → s.fetchable (s.pc + 2) = true →
      calcEA (.absL l) sz s = .ok (.mem fc l) { s with pc := s.pc + 4 }) ∧
    (s.fetchable s.pc = true → sz ≠ .l → calcEA (.imm l) sz s = .ok (.imm l) t) ∧
    (s.fetchable s.pc = true → s.fetchable (s.pc + 2) = true → sz = .l →
      calcEA (.imm l) sz s = .ok (.imm l) { s with pc := s.pc + 4 }) ∧
    (∀ e, s.fetchable s.pc = true → s.fetchWordAt (s.pc + 2) = .error e →
      calcEA (.absL l) sz s = .error (.fetch e) (failed t) ∧
      (sz = .l → calcEA (.imm l) sz s = .error (.fetch e) (failed t))) ∧
    (∀ e, s.fetchWordAt s.pc = .error e →
      calcEA (.disp n d) sz s = .error (.fetch e) (failed s) ∧ calcEA (.index n x) sz s = .error (.fetch e) (failed s) ∧
      calcEA (.absW d) sz s = .error (.fetch e) (failed s) ∧ calcEA (.absL l) sz s = .error (.fetch e) (failed s) ∧
      calcEA (.pcDisp d) sz s = .error (.fetch e) (failed s) ∧
      calcEA (.pcIndex x) sz s = .error (.fetch e) (failed s) ∧
      calcEA (.imm l) sz s = .error (.fetch e) (failed s))

/-! ## Condition codes -/

/-- R181, R182: the flags of an addition and of a subtraction, and what C and V mean. -/
def Obligations.AdditionAndSubtractionFlags : Prop :=
  (∀ (sz : Size) (a b : Word), sz.fits a = true → sz.fits b = true →
     let r := sz.trunc (b + a)
     let f := flagsAdd sz a b r
     f.c = ((sz.msb a && sz.msb b) || (!sz.msb r && sz.msb b) || (sz.msb a && !sz.msb r)) ∧
     f.v = ((sz.msb a && sz.msb b && !sz.msb r) || (!sz.msb a && !sz.msb b && sz.msb r)) ∧
     f.x = f.c ∧ f.n = sz.msb r ∧ f.z = decide (r = 0) ∧
     f.c = decide (b.toNat + a.toNat ≥ 2 ^ sz.bits) ∧
     f.v = decide (signedAt sz b + signedAt sz a < -2 ^ (sz.bits - 1) ∨
       signedAt sz b + signedAt sz a > 2 ^ (sz.bits - 1) - 1)) ∧
  (∀ (sz : Size) (a b : Word), sz.fits a = true → sz.fits b = true →
     let r := sz.trunc (b - a)
     let f := flagsSub sz a b r
     f.c = ((sz.msb a && !sz.msb b) || (sz.msb r && !sz.msb b) || (sz.msb a && sz.msb r)) ∧
     f.v = ((!sz.msb a && sz.msb b && !sz.msb r) || (sz.msb a && !sz.msb b && sz.msb r)) ∧
     f.x = f.c ∧ f.n = sz.msb r ∧ f.z = decide (r = 0) ∧
     f.c = decide (a.toNat > b.toNat) ∧
     f.v = decide (signedAt sz b - signedAt sz a < -2 ^ (sz.bits - 1) ∨
       signedAt sz b - signedAt sz a > 2 ^ (sz.bits - 1) - 1))

/-- R184: ADDX and SUBX count X in the carry and keep Z only while the result is zero. R185: NEG and NEGX. -/
def Obligations.ExtendedAndNegationFlags : Prop :=
  (∀ (sz : Size) (a b : Word) (f : Ccr), sz.fits a = true → sz.fits b = true →
     let sum := sz.trunc (b + a + f.xWord)
     let dif := sz.trunc (b - a - f.xWord)
     (flagsAddX sz a b sum f).c = decide (b.toNat + a.toNat + f.x.toNat ≥ 2 ^ sz.bits) ∧
     (flagsSubX sz a b dif f).c = decide (a.toNat + f.x.toNat > b.toNat) ∧
     flagsAddX sz a b sum f = { flagsAdd sz a b sum with z := if sum = 0 then f.z else false } ∧
     flagsSubX sz a b dif f = { flagsSub sz a b dif with z := if dif = 0 then f.z else false }) ∧
  (∀ (sz : Size) (b : Word) (f : Ccr), sz.fits b = true →
     let r := sz.trunc (0 - b)
     let rx := sz.trunc (0 - b - f.xWord)
     flagsNeg sz b r = { x := decide (b ≠ 0), n := sz.msb r, z := decide (r = 0)
                         v := sz.msb b && sz.msb r, c := decide (b ≠ 0) } ∧
     (sz.msb b && sz.msb r) = decide (b.toNat = 2 ^ (sz.bits - 1)) ∧
     flagsNegX sz b rx f = { x := decide (b ≠ 0 ∨ f.x = true), n := sz.msb rx
                             z := if rx = 0 then f.z else false
                             v := sz.msb b && sz.msb rx, c := decide (b ≠ 0 ∨ f.x = true) })

/-- R197: after a compare the conditions order the operands, unsigned and signed. -/
def Obligations.ConditionsAfterCompare : Prop :=
  ∀ (sz : Size) (a b : Word) (f : Ccr), sz.fits a = true → sz.fits b = true →
    let g := flagsCmp sz a b (sz.trunc (b - a)) f
    condTest .hi g = decide (b.toNat > a.toNat) ∧ condTest .cc g = decide (b.toNat ≥ a.toNat) ∧
    condTest .cs g = decide (b.toNat < a.toNat) ∧ condTest .ls g = decide (b.toNat ≤ a.toNat) ∧
    condTest .gt g = decide (signedAt sz b > signedAt sz a) ∧
    condTest .ge g = decide (signedAt sz b ≥ signedAt sz a) ∧
    condTest .lt g = decide (signedAt sz b < signedAt sz a) ∧
    condTest .le g = decide (signedAt sz b ≤ signedAt sz a) ∧
    condTest .eq g = decide (b = a) ∧ condTest .ne g = decide (b ≠ a) ∧ g.x = f.x

/-! ## Shifts, decimal digits, division -/

/-- R328: a count of 0 arises only from the register-count form; a shift by zero leaves the data and sets the flags
from it. -/
def Obligations.ShiftByZero : Prop :=
  ∀ (k : ShiftKind) (sz : Size) (d : Word) (f : Ccr) (s : State) (c : RegNo),
    s.shiftCount (.quick c) ≠ 0 ∧ (s.shiftCount (.reg c) = 0 ↔ (s.getD c).toNat % 64 = 0) ∧
    aluShift k sz d 0 f =
      (d, { x := f.x, n := sz.msb d, z := decide (d = 0), v := false
            c := match k with
              | .roxl => f.x
              | .roxr => f.x
              | _ => false })

/-- R310: ASL sets V exactly when the sign bit differs from the operand's at some point of the shift. ROL and ROR by `n`
move bit `i` to bit `i + n` and `i - n` modulo the width; ROXL and ROXR do so on the width plus one, with X at the top. -/
def Obligations.ShiftResults : Prop :=
  (∀ (w d n : Nat) (x : Bool), 0 < w → d < 2 ^ w → 0 < n →
     ((shift .asl w d n x).v = true ↔
       ∃ k ≤ n, (d * 2 ^ k % 2 ^ w).testBit (w - 1) ≠ d.testBit (w - 1))) ∧
  (∀ (w d n : Nat) (x : Bool), 0 < w → d < 2 ^ w → 0 < n →
     (∀ i < w, (shift .rol w d n x).res.testBit ((i + n) % w) = d.testBit i ∧
       (shift .ror w d n x).res.testBit i = d.testBit ((i + n) % w)) ∧
     (∀ i ≤ w,
       let e := x.toNat * 2 ^ w + d
       let l := shift .roxl w d n x
       let r := shift .roxr w d n x
       (l.c.toNat * 2 ^ w + l.res).testBit ((i + n) % (w + 1)) = e.testBit i ∧
       (r.c.toNat * 2 ^ w + r.res).testBit i = e.testBit ((i + n) % (w + 1)) ∧
       l.xw = some l.c ∧ r.xw = some r.c))

/-- R360, R361: on decimal digits the sum and the difference are decimal, modulo 100, with their carry and borrow. -/
def Obligations.DecimalArithmetic : Prop :=
  ∀ (a b : Byte) (x : Bool), validDecimal a = true → validDecimal b = true →
    let sum := decimalValue b + decimalValue a + x.toNat
    let take := decimalValue a + x.toNat
    validDecimal (bcdAdd a b x).1 = true ∧
    decimalValue (bcdAdd a b x).1 = sum % 100 ∧ (bcdAdd a b x).2 = decide (sum ≥ 100) ∧
    validDecimal (bcdSub a b x).1 = true ∧
    decimalValue (bcdSub a b x).1 = (decimalValue b + 200 - take) % 100 ∧
    (bcdSub a b x).2 = decide (decimalValue b < take)

/-- R268: DIVS rounds toward zero and its remainder has the sign of the dividend; the packed register gives both
back when the quotient fits. -/
def Obligations.SignedDivisionLaw : Prop :=
  ∀ (dividend : Word) (divisor : Half), divisor ≠ 0 →
    let q := (divSigned dividend divisor).1
    let r := (divSigned dividend divisor).2
    dividend.toInt = q * divisor.toInt + r ∧ r.natAbs < divisor.toInt.natAbs ∧
    (0 ≤ dividend.toInt → 0 ≤ r) ∧ (dividend.toInt ≤ 0 → r ≤ 0) ∧
    (-32768 ≤ q → q ≤ 32767 →
      ((packDiv (BitVec.ofInt 16 r) (BitVec.ofInt 16 q)).extractLsb' 0 16).toInt = q ∧
      ((packDiv (BitVec.ofInt 16 r) (BitVec.ofInt 16 q)).extractLsb' 16 16).toInt = r)

/-! ## The result of each instruction -/

/-- R240, R261, R290, R296: ADD, SUB, AND and OR to a data register. -/
def Obligations.AluToRegister : Prop :=
  ∀ (s : State) (sz : Size) (dn : RegNo) (ea : Ea) (v : Word),
    s.started.eaReady ea sz = true → s.started.operand ea sz = some v →
    let t := s.started.afterEA ea sz
    let d := sz.trunc (t.getD dn)
    exec (.addToReg sz dn ea) s = .next (finish true s.pc
      ((t.setDSized sz dn (sz.trunc (d + v))).setFlags (flagsAdd sz v d (sz.trunc (d + v))))) ∧
    exec (.subToReg sz dn ea) s = .next (finish true s.pc
      ((t.setDSized sz dn (sz.trunc (d - v))).setFlags (flagsSub sz v d (sz.trunc (d - v))))) ∧
    exec (.andToReg sz dn ea) s = .next (finish true s.pc
      ((t.setDSized sz dn (d &&& v)).setFlags (flagsLogic sz (d &&& v) t.flags))) ∧
    exec (.orToReg sz dn ea) s = .next (finish true s.pc
      ((t.setDSized sz dn (d ||| v)).setFlags (flagsLogic sz (d ||| v) t.flags)))

/-- R241, R262, R291, R293, R297: ADD, SUB, AND, EOR and OR to an effective address, read and written at one location
computed once. -/
def Obligations.AluToLocation : Prop :=
  ∀ (s : State) (sz : Size) (dn : RegNo) (ea : Ea) (d : Word),
    s.started.eaReady ea sz = true → s.started.operand ea sz = some d →
    let t := s.started.afterEA ea sz
    let loc := s.started.eaLoc ea sz
    let v := sz.trunc (t.getD dn)
    t.canStore loc sz = true →
    exec (.addToMem sz dn ea) s = .next (finish true s.pc
      ((t.stored loc sz (sz.trunc (d + v))).setFlags (flagsAdd sz v d (sz.trunc (d + v))))) ∧
    exec (.subToMem sz dn ea) s = .next (finish true s.pc
      ((t.stored loc sz (sz.trunc (d - v))).setFlags (flagsSub sz v d (sz.trunc (d - v))))) ∧
    exec (.andToMem sz dn ea) s = .next (finish true s.pc
      ((t.stored loc sz (d &&& v)).setFlags (flagsLogic sz (d &&& v) t.flags))) ∧
    exec (.orToMem sz dn ea) s = .next (finish true s.pc
      ((t.stored loc sz (d ||| v)).setFlags (flagsLogic sz (d ||| v) t.flags))) ∧
    exec (.eor sz dn ea) s = .next (finish true s.pc
      ((t.stored loc sz (d ^^^ v)).setFlags (flagsLogic sz (d ^^^ v) t.flags)))

/-- R243, R264, R292, R294, R298: the immediates, whose words come before those of the effective address. R244, R265: ADDQ
and SUBQ; to an address register all 32 bits change and no flag. -/
def Obligations.AluImmediate : Prop :=
  (∀ (s : State) (sz : Size) (imm : Word) (ea : Ea) (d : Word),
     let s1 := s.started.skip (if sz = .l then 2 else 1)
     s.started.canFetch (if sz = .l then 2 else 1) = true →
     s1.eaReady ea sz = true → s1.operand ea sz = some d →
     let t := s1.afterEA ea sz
     let loc := s1.eaLoc ea sz
     t.canStore loc sz = true →
     exec (.addi sz imm ea) s = .next (finish true s.pc
       ((t.stored loc sz (sz.trunc (d + imm))).setFlags (flagsAdd sz imm d (sz.trunc (d + imm))))) ∧
     exec (.subi sz imm ea) s = .next (finish true s.pc
       ((t.stored loc sz (sz.trunc (d - imm))).setFlags (flagsSub sz imm d (sz.trunc (d - imm))))) ∧
     exec (.andi sz imm ea) s = .next (finish true s.pc
       ((t.stored loc sz (d &&& imm)).setFlags (flagsLogic sz (d &&& imm) t.flags))) ∧
     exec (.ori sz imm ea) s = .next (finish true s.pc
       ((t.stored loc sz (d ||| imm)).setFlags (flagsLogic sz (d ||| imm) t.flags))) ∧
     exec (.eori sz imm ea) s = .next (finish true s.pc
       ((t.stored loc sz (d ^^^ imm)).setFlags (flagsLogic sz (d ^^^ imm) t.flags)))) ∧
  (∀ (s : State) (sz : Size) (q : RegNo),
     let k : Word := if q = 0 then 8 else BitVec.ofNat 32 q.val
     (∀ n : RegNo,
       exec (.addq sz q (.areg n)) s =
         .next (finish true s.pc (s.started.setA n (s.started.getA n + k))) ∧
       exec (.subq sz q (.areg n)) s =
         .next (finish true s.pc (s.started.setA n (s.started.getA n - k)))) ∧
     ∀ (ea : Ea) (d : Word), (∀ n, ea ≠ .areg n) →
       s.started.eaReady ea sz = true → s.started.operand ea sz = some d →
       let t := s.started.afterEA ea sz
       let loc := s.started.eaLoc ea sz
       t.canStore loc sz = true →
       exec (.addq sz q ea) s = .next (finish true s.pc
         ((t.stored loc sz (sz.trunc (d + k))).setFlags (flagsAdd sz k d (sz.trunc (d + k))))) ∧
       exec (.subq sz q ea) s = .next (finish true s.pc
         ((t.stored loc sz (sz.trunc (d - k))).setFlags (flagsSub sz k d (sz.trunc (d - k))))))

/-- R211, R222, R242, R263: ADDA, SUBA, MOVEA and LEA write all 32 bits of An, a word source sign-extended, and no
flag. -/
def Obligations.AddressResults : Prop :=
  ∀ (s : State) (an : RegNo) (ea : Ea),
    (∀ (sz : Size) (v : Word), s.started.eaReady ea sz = true → s.started.operand ea sz = some v →
      let t := s.started.afterEA ea sz
      exec (.adda sz an ea) s = .next (finish true s.pc (t.setA an (t.getA an + sz.sext v))) ∧
      exec (.suba sz an ea) s = .next (finish true s.pc (t.setA an (t.getA an - sz.sext v))) ∧
      (sz = .w → exec (.moveaW an ea) s = .next (finish true s.pc (t.setA an (sz.sext v)))) ∧
      (sz = .l → exec (.moveaL an ea) s = .next (finish true s.pc (t.setA an v)))) ∧
    (s.started.eaReady ea .l = true →
      exec (.lea an ea) s =
        .next (finish true s.pc ((s.started.afterEA ea .l).setA an (s.started.eaLoc ea .l).addr)))

/-- R248 to R251, R380: CMP, CMPA (always at 32 bits), CMPM, TST and CMPI write flags only, beside the side effects of
their effective addresses. -/
def Obligations.Compares : Prop :=
  (∀ (s : State) (sz : Size) (n m : RegNo) (ea : Ea) (v d : Word),
     let t := s.started.afterEA ea sz
     (s.started.eaReady ea sz = true → s.started.operand ea sz = some v →
       exec (.cmp sz n ea) s = .next (finish true s.pc (t.setFlags
         (flagsCmp sz v (sz.trunc (t.getD n)) (sz.trunc (sz.trunc (t.getD n) - v)) t.flags))) ∧
       exec (.cmpa sz n ea) s = .next (finish true s.pc (t.setFlags
         (flagsCmp .l (sz.sext v) (t.getA n) (t.getA n - sz.sext v) t.flags))) ∧
       exec (.tst sz ea) s = .next (finish true s.pc (t.setFlags (flagsLogic sz v t.flags)))) ∧
     (let t1 := s.started.afterEA (.postinc m) sz
      s.started.operand (.postinc m) sz = some v → t1.operand (.postinc n) sz = some d →
      let t2 := t1.afterEA (.postinc n) sz
      exec (.cmpm sz n m) s = .next (finish true s.pc (t2.setFlags
        (flagsCmp sz v d (sz.trunc (d - v)) t2.flags))))) ∧
  (∀ (s : State) (sz : Size) (imm : Word) (ea : Ea) (d : Word),
     let s1 := s.started.skip (if sz = .l then 2 else 1)
     s.started.canFetch (if sz = .l then 2 else 1) = true →
     s1.eaReady ea sz = true → s1.operand ea sz = some d →
     let t := s1.afterEA ea sz
     exec (.cmpi sz imm ea) s = .next (finish true s.pc (t.setFlags
       (flagsCmp sz imm d (sz.trunc (d - imm)) t.flags))))

/-- R245, R246, R266, R267: ADDX and SUBX, between data registers and between predecremented memory operands (source
first, both decrements on one register when they name the same). -/
def Obligations.ExtendedArithmetic : Prop :=
  ∀ (s : State) (sz : Size) (x y : RegNo),
    let c : Word := if s.flags.x then 1 else 0
    (let v := sz.trunc (s.getD y)
     let d := sz.trunc (s.getD x)
     exec (.addxReg sz x y) s = .next (finish true s.pc
       ((s.started.setDSized sz x (sz.trunc (d + v + c))).setFlags
         (flagsAddX sz v d (sz.trunc (d + v + c)) s.flags))) ∧
     exec (.subxReg sz x y) s = .next (finish true s.pc
       ((s.started.setDSized sz x (sz.trunc (d - v - c))).setFlags
         (flagsSubX sz v d (sz.trunc (d - v - c)) s.flags)))) ∧
    ∀ v d : Word,
      let t1 := s.started.afterEA (.predec y) sz
      let t2 := t1.afterEA (.predec x) sz
      let loc := t1.eaLoc (.predec x) sz
      s.started.operand (.predec y) sz = some v → t1.operand (.predec x) sz = some d →
      t2.canStore loc sz = true →
      exec (.addxMem sz x y) s = .next (finish true s.pc
        ((t2.stored loc sz (sz.trunc (d + v + c))).setFlags
          (flagsAddX sz v d (sz.trunc (d + v + c)) s.flags))) ∧
      exec (.subxMem sz x y) s = .next (finish true s.pc
        ((t2.stored loc sz (sz.trunc (d - v - c))).setFlags
          (flagsSubX sz v d (sz.trunc (d - v - c)) s.flags)))

/-- R247, R259, R260, R295: NEG, NEGX, NOT, and CLR, which reads nothing. -/
def Obligations.UnaryResults : Prop :=
  ∀ (s : State) (sz : Size) (ea : Ea),
    let t := s.started.afterEA ea sz
    let loc := s.started.eaLoc ea sz
    s.started.eaReady ea sz = true → t.canStore loc sz = true →
    exec (.clr sz ea) s = .next (finish true s.pc ((t.stored loc sz 0).setFlags
      { t.flags with n := false, z := true, v := false, c := false })) ∧
    ∀ d : Word, s.started.operand ea sz = some d →
      let c : Word := if t.flags.x then 1 else 0
      exec (.neg sz ea) s = .next (finish true s.pc
        ((t.stored loc sz (sz.trunc (0 - d))).setFlags (flagsNeg sz d (sz.trunc (0 - d))))) ∧
      exec (.negx sz ea) s = .next (finish true s.pc
        ((t.stored loc sz (sz.trunc (0 - d - c))).setFlags (flagsNegX sz d (sz.trunc (0 - d - c)) t.flags))) ∧
      exec (.notEa sz ea) s = .next (finish true s.pc
        ((t.stored loc sz (sz.trunc (~~~d))).setFlags (flagsLogic sz (sz.trunc (~~~d)) t.flags)))

/-- R257, R258: MULS and MULU, 16 by 16 to 32 bits. R252, R253: DIVS and DIVU with a quotient that fits: remainder in bits
31:16, quotient in bits 15:0. -/
def Obligations.MultiplyAndDivide : Prop :=
  (∀ (s : State) (dn : RegNo) (ea : Ea) (v : Word),
     s.started.eaReady ea .w = true → s.started.operand ea .w = some v →
     let t := s.started.afterEA ea .w
     let ps : Word := BitVec.ofInt 32 (((t.getD dn).setWidth 16).toInt * (v.setWidth 16).toInt)
     let pu : Word := BitVec.ofNat 32 (((t.getD dn).setWidth 16).toNat * (v.setWidth 16).toNat)
     exec (.muls dn ea) s = .next (finish true s.pc ((t.setD dn ps).setFlags (flagsLogic .l ps t.flags))) ∧
     exec (.mulu dn ea) s = .next (finish true s.pc ((t.setD dn pu).setFlags (flagsLogic .l pu t.flags)))) ∧
  (∀ (s : State) (dn : RegNo) (ea : Ea) (v : Word),
     s.started.eaReady ea .w = true → s.started.operand ea .w = some v → v ≠ 0 →
     let t := s.started.afterEA ea .w
     let n := (t.getD dn).toInt
     let q := Int.tdiv n (v.setWidth 16).toInt
     (-32768 ≤ q → q ≤ 32767 →
       exec (.divs dn ea) s = .next (finish true s.pc
         ((t.setD dn (BitVec.ofInt 16 (n - q * (v.setWidth 16).toInt) ++ BitVec.ofInt 16 q)).setFlags
           { t.flags with n := decide (q < 0), z := decide (q = 0), v := false, c := false }))) ∧
     ((t.getD dn).toNat / v.toNat ≤ 0xFFFF →
       exec (.divu dn ea) s = .next (finish true s.pc
         ((t.setD dn (BitVec.ofNat 16 ((t.getD dn).toNat % v.toNat) ++
             BitVec.ofNat 16 ((t.getD dn).toNat / v.toNat))).setFlags
           { t.flags with n := ((t.getD dn).toNat / v.toNat).testBit 15
                          z := decide ((t.getD dn).toNat / v.toNat = 0), v := false, c := false }))))

/-- R252 to R254: a quotient overflow writes no register and completes, with the CCR unchanged or, under
`DIV_OVERFLOW_FLAGS = silicon`, V = 1, C = 0 and N and Z undefined; a divisor of 0 takes `Division_by_zero` with
C = 0 and N, Z and V undefined. An undefined flag is unchanged under `UNDEFINED_FLAGS = unchanged` and free else. -/
def Obligations.DivideAbnormal : Prop :=
  ∀ (s : State) (dn : RegNo) (ea : Ea) (v : Word) (i : Instr),
    s.started.eaReady ea .w = true → s.started.operand ea .w = some v →
    let t := s.started.afterEA ea .w
    let q := Int.tdiv (t.getD dn).toInt (v.setWidth 16).toInt
    (v ≠ 0 →
      (i = .divs dn ea ∧ (q < -32768 ∨ q > 32767)) ∨ (i = .divu dn ea ∧ (t.getD dn).toNat / v.toNat > 0xFFFF) →
      (s.cfg.divOverflow = .unchanged → exec i s = .next (finish true s.pc t)) ∧
      (s.cfg.divOverflow = .silicon → ∃ (n z : Bool) (k : Nat),
        exec i s = .next (finish true s.pc (({ t with draws := k } : State).setFlags
          { t.flags with n := n, z := z, v := true, c := false })) ∧
        (s.cfg.undefinedFlags = .unchanged → n = t.flags.n ∧ z = t.flags.z ∧ k = t.draws))) ∧
    (v = 0 → i = .divs dn ea ∨ i = .divu dn ea →
      ∃ (n z f : Bool) (k : Nat),
        exec i s = .next (deliver .divisionByZero .execute s.pc (({ t with draws := k } : State).setFlags
          { t.flags with n := n, z := z, v := f, c := false }).counted) ∧
        (s.cfg.undefinedFlags = .unchanged → n = t.flags.n ∧ z = t.flags.z ∧ f = t.flags.v ∧ k = t.draws))

/-- R212, R224, R255, R256, R327: MOVEQ, EXT, SWAP and EXG. -/
def Obligations.RegisterOnly : Prop :=
  ∀ (s : State) (x y : RegNo) (imm : Byte),
    let t := s.started
    let m : Word := imm.signExtend 32
    let ew : Word := (((t.getD x).setWidth 8).signExtend 16).setWidth 32
    let el : Word := ((t.getD x).setWidth 16).signExtend 32
    let sw : Word := (t.getD x).extractLsb' 0 16 ++ (t.getD x).extractLsb' 16 16
    exec (.moveq x imm) s = .next (finish true s.pc ((t.setD x m).setFlags (flagsLogic .l m t.flags))) ∧
    exec (.extW x) s = .next (finish true s.pc ((t.setDSized .w x ew).setFlags (flagsLogic .w ew t.flags))) ∧
    exec (.extL x) s = .next (finish true s.pc ((t.setD x el).setFlags (flagsLogic .l el t.flags))) ∧
    exec (.swap x) s = .next (finish true s.pc ((t.setD x sw).setFlags (flagsLogic .l sw t.flags))) ∧
    exec (.exgDD x y) s = .next (finish true s.pc ((t.setD x (t.getD y)).setD y (t.getD x))) ∧
    exec (.exgAA x y) s = .next (finish true s.pc ((t.setA x (t.getA y)).setA y (t.getA x))) ∧
    exec (.exgDA x y) s = .next (finish true s.pc ((t.setD x (t.getA y)).setA y (t.getD x)))

/-- R311 to R326: the shifts and rotates, by `Shift` of R310: of a register by a count, of a word in memory by one. -/
def Obligations.Shifts : Prop :=
  (∀ (s : State) (sz : Size) (c : ShiftCount) (dn : RegNo),
     let result (k : ShiftKind) : Outcome :=
       let o := shift k sz.bits (sz.trunc (s.getD dn)).toNat (s.shiftCount c) s.flags.x
       .next (finish true s.pc ((s.started.setDSized sz dn (BitVec.ofNat 32 o.res)).setFlags
         (flagsShift sz (BitVec.ofNat 32 o.res) o.c o.v o.xw s.flags)))
     exec (.aslReg sz c dn) s = result .asl ∧ exec (.asrReg sz c dn) s = result .asr ∧
     exec (.lslReg sz c dn) s = result .lsl ∧ exec (.lsrReg sz c dn) s = result .lsr ∧
     exec (.rolReg sz c dn) s = result .rol ∧ exec (.rorReg sz c dn) s = result .ror ∧
     exec (.roxlReg sz c dn) s = result .roxl ∧ exec (.roxrReg sz c dn) s = result .roxr) ∧
  (∀ (s : State) (ea : Ea) (d : Word),
     s.started.eaReady ea .w = true → s.started.operand ea .w = some d →
     let t := s.started.afterEA ea .w
     let loc := s.started.eaLoc ea .w
     t.canStore loc .w = true →
     let result (k : ShiftKind) : Outcome :=
       let o := shift k 16 d.toNat 1 t.flags.x
       .next (finish true s.pc ((t.stored loc .w (BitVec.ofNat 32 o.res)).setFlags
         (flagsShift .w (BitVec.ofNat 32 o.res) o.c o.v o.xw t.flags)))
     exec (.aslMem ea) s = result .asl ∧ exec (.asrMem ea) s = result .asr ∧
     exec (.lslMem ea) s = result .lsl ∧ exec (.lsrMem ea) s = result .lsr ∧
     exec (.rolMem ea) s = result .rol ∧ exec (.rorMem ea) s = result .ror ∧
     exec (.roxlMem ea) s = result .roxl ∧ exec (.roxrMem ea) s = result .roxr)

/-- R340 to R344: the bit instructions, with a bit number from a data register or from the word after the opcode; a
register operand is long and a memory operand a byte. `s1` is the state once the bit number is known. R346: TAS takes
the flags of the byte read and writes it back with bit 7 set. -/
def Obligations.BitInstructions : Prop :=
  (∀ (s : State) (dn : RegNo) (bit : Byte) (ea : Ea) (v : Word) (dynamic : Bool),
     let s1 := if dynamic then s.started else s.started.skip 1
     let number := if dynamic then (s.getD dn).toNat else bit.toNat
     let sz : Size := match ea with
       | .dreg _ => .l
       | _ => .b
     let k := number % sz.bits
     let t := s1.afterEA ea sz
     let loc := s1.eaLoc ea sz
     let u := t.setFlags { t.flags with z := !v.getLsbD k }
     (dynamic = false → s.started.canFetch 1 = true) →
     s1.eaReady ea sz = true → s1.operand ea sz = some v →
     exec (if dynamic then .btstD dn ea else .btstI bit ea) s = .next (finish true s.pc u) ∧
     (t.canStore loc sz = true →
       exec (if dynamic then .bchgD dn ea else .bchgI bit ea) s =
         .next (finish true s.pc (u.stored loc sz (v ^^^ (1#32 <<< k)))) ∧
       exec (if dynamic then .bclrD dn ea else .bclrI bit ea) s =
         .next (finish true s.pc (u.stored loc sz (v &&& ~~~(1#32 <<< k)))) ∧
       exec (if dynamic then .bsetD dn ea else .bsetI bit ea) s =
         .next (finish true s.pc (u.stored loc sz (v ||| (1#32 <<< k)))))) ∧
  (∀ (s : State) (ea : Ea) (v : Word),
     let t := s.started.afterEA ea .b
     let loc := s.started.eaLoc ea .b
     s.started.eaReady ea .b = true → s.started.operand ea .b = some v → t.canStore loc .b = true →
     exec (.tas ea) s = .next (finish true s.pc
       ((t.setFlags { t.flags with n := v.getLsbD 7, z := decide (v = 0), v := false, c := false }).stored loc .b
         (v ||| 0x80#32))))

/-- The flags of a decimal result (R367): `n` and `v` are undefined, unchanged under `UNDEFINED_FLAGS = unchanged`. -/
def Obligations.DecimalInstructions : Prop :=
  ∀ (s : State) (x y : RegNo) (ea : Ea) (i : Instr) (u : State) (o : Byte × Bool),
    (let v := (s.getD y).setWidth 8
     let d := (s.getD x).setWidth 8
     (i = .abcdReg x y ∧ o = bcdAdd v d s.flags.x ∨ i = .sbcdReg x y ∧ o = bcdSub v d s.flags.x) ∧
       u = s.started.setDSized .b x (o.1.setWidth 32)) ∨
    (∃ v d : Word,
      let t1 := s.started.afterEA (.predec y) .b
      let t2 := t1.afterEA (.predec x) .b
      let loc := t1.eaLoc (.predec x) .b
      s.started.operand (.predec y) .b = some v ∧ t1.operand (.predec x) .b = some d ∧
      t2.canStore loc .b = true ∧
      (i = .abcdMem x y ∧ o = bcdAdd (v.setWidth 8) (d.setWidth 8) s.flags.x ∨
        i = .sbcdMem x y ∧ o = bcdSub (v.setWidth 8) (d.setWidth 8) s.flags.x) ∧
      u = t2.stored loc .b (o.1.setWidth 32)) ∨
    (∃ d : Word,
      let t := s.started.afterEA ea .b
      let loc := s.started.eaLoc ea .b
      s.started.eaReady ea .b = true ∧ s.started.operand ea .b = some d ∧ t.canStore loc .b = true ∧
      i = .nbcd ea ∧ o = bcdSub (d.setWidth 8) 0 s.flags.x ∧ u = t.stored loc .b (o.1.setWidth 32)) →
    ∃ (n v : Bool) (k : Nat),
      exec i s = .next (finish true s.pc (({ u with draws := k } : State).setFlags
        { x := o.2, n := n, z := if o.1 = 0 then s.flags.z else false, v := v, c := o.2 })) ∧
      (s.cfg.undefinedFlags = .unchanged → n = s.flags.n ∧ v = s.flags.v ∧ k = u.draws)

/-- R210: MOVE reads its source, then computes its destination, then writes it and the flags. -/
def Obligations.Move : Prop :=
  ∀ (s : State) (sz : Size) (src dst : Ea) (v : Word),
    let t1 := s.started.afterEA src sz
    let t2 := t1.afterEA dst sz
    let loc := t1.eaLoc dst sz
    s.started.eaReady src sz = true → s.started.operand src sz = some v →
    t1.eaReady dst sz = true → t2.canStore loc sz = true →
    exec (match sz with
      | .b => .moveB src dst
      | .w => .moveW src dst
      | .l => .moveL src dst) s =
      .next (finish true s.pc ((t2.stored loc sz v).setFlags (flagsLogic sz v t2.flags)))

/-- R214, R215, R218: MOVEM registers to memory: the registers in order at ascending addresses, or, with `-(An)`, at
descending ones, An ending at the last address; An in its own list stores its old value, on mc68020 the final one.
R213: which registers a mask selects, and their order: the reversed mask of `-(An)` gives the same list in the opposite
order. -/
def Obligations.MovemToMemory : Prop :=
  (∀ (s : State) (sz : Size) (mask : Half),
     let s1 := s.started.skip 1
     s.started.canFetch 1 = true →
     (∀ ea : Ea, s1.eaReady ea sz = true →
       let t := s1.afterEA ea sz
       let loc := s1.eaLoc ea sz
       let writes := (maskRegs mask).zipIdx.map fun p =>
         (loc.addr + BitVec.ofNat 32 (sz.bytes * p.2), t.getG p.1)
       (∀ w ∈ writes, t.canStore (.mem loc.fc w.1) sz = true) →
       exec (.movemToMem sz mask ea) s = .next (finish true s.pc (t.storedAll loc.fc sz writes))) ∧
     (∀ an : RegNo,
       let base := s.getA an
       let last := base - BitVec.ofNat 32 (sz.bytes * (maskRegsPredec mask).length)
       let writes := (maskRegsPredec mask).zipIdx.map fun p =>
         (base - BitVec.ofNat 32 (sz.bytes * (p.2 + 1)),
           if p.1 = .a an ∧ s.cfg.model = .mc68020 then last else s.getG p.1)
       (∀ w ∈ writes, s1.canStore (.mem s.dataFC w.1) sz = true) →
       exec (.movemToPredec sz mask an) s =
         .next (finish true s.pc ((s1.storedAll s.dataFC sz writes).setA an last)))) ∧
  (∀ (mask : Half),
     (∀ n : RegNo, (GReg.d n ∈ maskRegs mask ↔ mask.getLsbD n.val = true) ∧
       (GReg.a n ∈ maskRegs mask ↔ mask.getLsbD (n.val + 8) = true) ∧
       (GReg.a n ∈ maskRegsPredec mask ↔ mask.getLsbD (7 - n.val) = true) ∧
       (GReg.d n ∈ maskRegsPredec mask ↔ mask.getLsbD (15 - n.val) = true)) ∧
     (maskRegs mask).Sublist [.d 0, .d 1, .d 2, .d 3, .d 4, .d 5, .d 6, .d 7,
       .a 0, .a 1, .a 2, .a 3, .a 4, .a 5, .a 6, .a 7] ∧
     maskRegsPredec mask = (maskRegs mask.reverse).reverse)

/-- R216, R217: MOVEM memory to registers, words sign-extended to 32 bits; with `(An)+` the incremented address wins
over a value loaded into An. -/
def Obligations.MovemFromMemory : Prop :=
  ∀ (s : State) (sz : Size) (mask : Half) (vs : List Word),
    let s1 := s.started.skip 1
    let loads := (maskRegs mask).zip (vs.map sz.sext)
    s.started.canFetch 1 = true → vs.length = (maskRegs mask).length →
    (∀ ea : Ea, s1.eaReady ea sz = true →
      let t := s1.afterEA ea sz
      let loc := s1.eaLoc ea sz
      (∀ p ∈ vs.zipIdx, t.valueAt (.mem loc.fc (loc.addr + BitVec.ofNat 32 (sz.bytes * p.2))) sz = some p.1) →
      exec (.movemFromMem sz mask ea) s = .next (finish true s.pc (t.setAllG loads))) ∧
    (∀ an : RegNo,
      (∀ p ∈ vs.zipIdx,
        s1.valueAt (.mem s.dataFC (s.getA an + BitVec.ofNat 32 (sz.bytes * p.2))) sz = some p.1) →
      exec (.movemFromPostinc sz mask an) s = .next (finish true s.pc
        ((s1.setAllG loads).setA an (s.getA an + BitVec.ofNat 32 (sz.bytes * vs.length)))))

/-- R220, R221: MOVEP moves the bytes of a word or a long at every second address, the high byte first. -/
def Obligations.MovePeripheral : Prop :=
  ∀ (s : State) (x y : RegNo) (d : Half),
    let t := s.started.skip 1
    let a := s.getA y + d.signExtend 32
    let v := s.getD x
    s.started.canFetch 1 = true →
    (t.canStore (.mem s.dataFC a) .b = true → t.canStore (.mem s.dataFC (a + 2)) .b = true →
      exec (.movepStoreW x y d) s =
        .next (finish true s.pc (t.storedAll s.dataFC .b [(a, v >>> 8), (a + 2, v)])) ∧
      (t.canStore (.mem s.dataFC (a + 4)) .b = true → t.canStore (.mem s.dataFC (a + 6)) .b = true →
        exec (.movepStoreL x y d) s =
          .next (finish true s.pc (t.storedAll s.dataFC .b
            [(a, v >>> 24), (a + 2, v >>> 16), (a + 4, v >>> 8), (a + 6, v)])))) ∧
    (∀ b0 b1 : Word, t.valueAt (.mem s.dataFC a) .b = some b0 → t.valueAt (.mem s.dataFC (a + 2)) .b = some b1 →
      exec (.movepLoadW x y d) s = .next (finish true s.pc (t.setDSized .w x ((b0 <<< 8) ||| b1))) ∧
      (∀ b2 b3 : Word,
        t.valueAt (.mem s.dataFC (a + 4)) .b = some b2 → t.valueAt (.mem s.dataFC (a + 6)) .b = some b3 →
        exec (.movepLoadL x y d) s = .next (finish true s.pc
          (t.setD x ((b0 <<< 24) ||| (b1 <<< 16) ||| (b2 <<< 8) ||| b3)))))

/-- R223, R225, R226: PEA, LINK (for A7 the decremented value is pushed) and UNLK (for A7 the loaded value wins). -/
def Obligations.StackFrames : Prop :=
  ∀ (s : State),
    (∀ ea : Ea, s.started.eaReady ea .l = true → (s.started.afterEA ea .l).canPush = true →
      exec (.pea ea) s = .next (finish true s.pc
        ((s.started.afterEA ea .l).pushed (s.started.eaLoc ea .l).addr))) ∧
    (∀ (an : RegNo) (d : Half),
      let t := s.started.skip 1
      let sp := s.getSP - 4
      let u := (t.pushed (if an = 7 then sp else s.getA an)).setA an sp
      s.started.canFetch 1 = true → t.canPush = true →
      exec (.link an d) s = .next (finish true s.pc (u.setSP (u.getSP + d.signExtend 32)))) ∧
    (∀ (an : RegNo) (v : Word),
      s.started.valueAt (.mem s.dataFC (s.getA an)) .l = some v →
      exec (.unlk an) s = .next (finish true s.pc ((s.started.setSP (s.getA an + 4)).setA an v)))

/-- R375 to R379: JMP, JSR, RTS, RTR (the CCR only) and RTD. -/
def Obligations.JumpsAndReturns : Prop :=
  ∀ (s : State),
    (∀ ea : Ea, s.started.eaReady ea .l = true →
      let t := s.started.afterEA ea .l
      let a := (s.started.eaLoc ea .l).addr
      exec (.jmp ea) s = .next (finish true s.pc { t with pc := a }) ∧
      (t.canPush = true → exec (.jsr ea) s = .next (finish true s.pc { t.pushed t.pc with pc := a }))) ∧
    (∀ v : Word, s.started.valueAt (.mem s.dataFC s.getSP) .l = some v →
      exec .rts s = .next (finish true s.pc { s.started.setSP (s.getSP + 4) with pc := v }) ∧
      (∀ d : Half, s.cfg.model ≠ .mc68000 → s.started.canFetch 1 = true →
        exec (.rtd d) s =
          .next (finish true s.pc { s.started.setSP (s.getSP + 4 + d.signExtend 32) with pc := v }))) ∧
    (∀ c v : Word, s.started.valueAt (.mem s.dataFC s.getSP) .w = some c →
      s.started.valueAt (.mem s.dataFC (s.getSP + 2)) .l = some v →
      exec .rtr s = .next (finish true s.pc
        { (s.started.setSP (s.getSP + 6)).setCCR (c.setWidth 8) with pc := v }))

/-- R370 to R374, R383: Bcc, BRA, BSR (except the displacement byte 0xFF on mc68020), DBcc, Scc and NOP. -/
def Obligations.Branches : Prop :=
  ∀ (s : State),
    (∀ (c : Cond) (d : BranchDisp),
      let t := s.started.skip (branchWords d)
      let target := s.pc + 2 + branchOffset d
      s.started.canFetch (branchWords d) = true → ¬ (s.cfg.model = .mc68020 ∧ d = .short 0xFF) →
      exec (.bcc c d) s = .next (finish true s.pc (if condTest c s.flags then { t with pc := target } else t)) ∧
      exec (.bra d) s = .next (finish true s.pc { t with pc := target }) ∧
      (t.canPush = true → exec (.bsr d) s = .next (finish true s.pc { t.pushed t.pc with pc := target }))) ∧
    (∀ (c : Cond) (n : RegNo) (d : Half),
      let t := s.started.skip 1
      let cnt := Size.w.trunc (s.getD n - 1)
      let u := t.setDSized .w n cnt
      s.started.canFetch 1 = true →
      exec (.dbcc c n d) s = .next (finish true s.pc
        (if condTest c s.flags then t
          else if cnt = 0xFFFF then u else { u with pc := s.pc + 2 + d.signExtend 32 }))) ∧
    (∀ (c : Cond) (ea : Ea), s.started.eaReady ea .b = true →
      (s.started.afterEA ea .b).canStore (s.started.eaLoc ea .b) .b = true →
      exec (.scc c ea) s = .next (finish true s.pc ((s.started.afterEA ea .b).stored (s.started.eaLoc ea .b) .b
        (if condTest c s.flags then 0xFF else 0)))) ∧
    exec .nop s = .next (finish true s.pc s.started)

/-- R400 to R409: the immediates to CCR and SR and the moves to and from them. -/
def Obligations.StatusInstructions : Prop :=
  ∀ (s : State),
    (∀ (b : Byte) (h : Half), s.started.canFetch 1 = true →
      let t := s.started.skip 1
      exec (.andiCcr b) s = .next (finish true s.pc (t.setCCR (s.getCCR &&& b))) ∧
      exec (.eoriCcr b) s = .next (finish true s.pc (t.setCCR (s.getCCR ^^^ b))) ∧
      exec (.oriCcr b) s = .next (finish true s.pc (t.setCCR (s.getCCR ||| b))) ∧
      (s.supervisor = true →
        exec (.andiSr h) s = .next (finish true s.pc (t.setSR (s.sr &&& h))) ∧
        exec (.eoriSr h) s = .next (finish true s.pc (t.setSR (s.sr ^^^ h))) ∧
        exec (.oriSr h) s = .next (finish true s.pc (t.setSR (s.sr ||| h))))) ∧
    (∀ (ea : Ea), s.started.eaReady ea .w = true →
      let t := s.started.afterEA ea .w
      let loc := s.started.eaLoc ea .w
      (∀ v : Word, s.started.operand ea .w = some v →
        exec (.moveToCcr ea) s = .next (finish true s.pc (t.setCCR (v.setWidth 8))) ∧
        (s.supervisor = true → exec (.moveToSr ea) s = .next (finish true s.pc (t.setSR (v.setWidth 16))))) ∧
      (t.canStore loc .w = true →
        (s.cfg.model ≠ .mc68000 →
          exec (.moveFromCcr ea) s = .next (finish true s.pc (t.stored loc .w (s.getCCR.setWidth 32)))) ∧
        (s.cfg.model = .mc68000 ∨ s.supervisor = true →
          exec (.moveFromSr ea) s = .next (finish true s.pc (t.stored loc .w (s.sr.setWidth 32))))))

/-- R410, R411, R414: MOVE USP and MOVEC; a code that names no register of the model is illegal, with the PC rewound. R45:
each control register reads back what was written (3 bits for SFC and DFC) and no other changes; USP, ISP and MSP are the
stack pointers themselves. -/
def Obligations.ControlRegisterMoves : Prop :=
  (∀ (s : State), s.supervisor = true →
     (∀ n : RegNo,
       exec (.moveToUsp n) s = .next (finish true s.pc { s.started with usp := s.getA n }) ∧
       exec (.moveFromUsp n) s = .next (finish true s.pc (s.started.setA n s.usp))) ∧
     (∀ (r : GReg) (code : BitVec 12), s.cfg.model ≠ .mc68000 → s.started.canFetch 1 = true →
       let t := s.started.skip 1
       (∀ c : ControlReg, controlRegOf code = some c → c.existsOn s.cfg.model = true →
         exec (.movecFrom r code) s = .next (finish true s.pc (t.setG r (s.readControl c))) ∧
         exec (.movecTo r code) s = .next (finish true s.pc (t.writeControl c (s.getG r)))) ∧
       ((∀ c : ControlReg, controlRegOf code = some c → c.existsOn s.cfg.model = false) →
         exec (.movecFrom r code) s = .next (deliver .illegalInstruction .execute s.pc s.counted) ∧
         exec (.movecTo r code) s = .next (deliver .illegalInstruction .execute s.pc s.counted)))) ∧
  (∀ (s : State) (r q : ControlReg) (v : Word),
     (s.writeControl r v).readControl r = (if r = .sfc ∨ r = .dfc then v &&& 7#32 else v) ∧
     (q ≠ r → (s.writeControl r v).readControl q = s.readControl q) ∧
     s.readControl .usp = s.usp ∧ s.readControl .isp = s.isp ∧ s.readControl .msp = s.msp ∧
     (s.writeControl r v).d = s.d ∧ (s.writeControl r v).a = s.a ∧ (s.writeControl r v).sr = s.sr ∧
     (s.writeControl r v).mem = s.mem)

/-- R415 to R417: RESET, STOP and RTE in supervisor mode. -/
def Obligations.MachineControl : Prop :=
  ∀ (s : State), s.supervisor = true →
    exec .reset s = .next (finish true s.pc s.started) ∧
    (∀ imm : Half, s.started.canFetch 1 = true →
      exec (.stop imm) s = .next ({ (s.started.skip 1).setSR imm with
        run := if imm = 0xFFFF then .finished else .stopped, icount := s.icount + 1 })) ∧
    (∀ sr npc fw : Word, s.started.valueAt (.mem 5 s.getSP) .w = some sr →
      s.started.valueAt (.mem 5 (s.getSP + 2)) .l = some npc →
      s.started.valueAt (.mem 5 (s.getSP + 6)) .w = some fw →
      (fw.toNat / 4096 = 0 → exec .rte s = .next (finish true s.pc
        { (s.started.setSP (s.getSP + 8)).setSR (sr.setWidth 16) with pc := npc })) ∧
      (fw.toNat / 4096 = 2 → exec .rte s = .next (finish true s.pc
        { (s.started.setSP (s.getSP + 12)).setSR (sr.setWidth 16) with pc := npc })) ∧
      (fw.toNat / 4096 ≠ 0 → fw.toNat / 4096 ≠ 2 →
        exec .rte s = .next (deliver .formatError .execute s.pc s.started.counted)))

/-- R418: MOVES through SFC and DFC; the register is read before the effective address's side effect. -/
def Obligations.MoveSpace : Prop :=
  ∀ (s : State) (sz : Size) (r : GReg) (ea : Ea),
    let s1 := s.started.skip 1
    let t := s1.afterEA ea sz
    let a := (s1.eaLoc ea sz).addr
    s.supervisor = true → s.cfg.model ≠ .mc68000 → s.started.canFetch 1 = true → s1.eaReady ea sz = true →
    (t.canStore (.mem s.dfc a) sz = true →
      exec (.moves sz true r ea) s = .next (finish true s.pc (t.stored (.mem s.dfc a) sz (s.getG r)))) ∧
    (∀ v : Word, t.valueAt (.mem s.sfc a) sz = some v →
      exec (.moves sz false r ea) s = .next (finish true s.pc (match r with
        | .d n => t.setDSized sz n v
        | .a n => t.setA n (sz.sext v))))

/-- R419, R420, R422 to R424: TRAP, TRAPV, ILLEGAL and the line-A and line-F words. -/
def Obligations.Traps : Prop :=
  ∀ (s : State) (v : Fin 16) (low : BitVec 12),
    exec (.trap v) s = .next (deliver (.trap v) .execute s.pc s.started.counted) ∧
    exec .trapv s = (if s.flags.v then .next (deliver .overflowTrap .execute s.pc s.started.counted)
      else .next (finish true s.pc s.started)) ∧
    exec .illegal s = .next (deliver .illegalInstruction .execute s.pc s.started.counted) ∧
    exec (.lineA low) s = .next (deliver .lineAEmulator .execute s.pc s.started.counted) ∧
    exec (.lineF low) s = .next (deliver .lineFEmulator .execute s.pc s.started.counted)

/-- R421: CHK: in range no flag changes, which is the model's reading also under `UNDEFINED_FLAGS = draw` (log entry 14:
R421 and D19, where R193's table has no such condition); below 0 or above the bound it takes `CHK_exception`, N telling
which, with Z, V and C undefined (unchanged under `UNDEFINED_FLAGS = unchanged`). -/
def Obligations.CheckBounds : Prop :=
  ∀ (s : State) (dn : RegNo) (ea : Ea) (b : Word),
    s.started.eaReady ea .w = true → s.started.operand ea .w = some b →
    let t := s.started.afterEA ea .w
    let v := ((t.getD dn).setWidth 16).toInt
    let bound := (b.setWidth 16).toInt
    (0 ≤ v → v ≤ bound → exec (.chk dn ea) s = .next (finish true s.pc t)) ∧
    (v < 0 ∨ v > bound → ∃ (z f c : Bool) (k : Nat),
      exec (.chk dn ea) s = .next (deliver .chkException .execute s.pc (({ t with draws := k } : State).setFlags
        { t.flags with n := decide (v < 0), z := z, v := f, c := c }).counted) ∧
      (s.cfg.undefinedFlags = .unchanged → z = t.flags.z ∧ f = t.flags.v ∧ c = t.flags.c ∧ k = t.draws))

/-- R440: BKPT without a callback is illegal with the PC rewound; with one, the word the host answers is the next
opcode, there is no prefetch, and `run` is not changed. What the host does to the rest of the state is free. -/
def Obligations.Breakpoint : Prop :=
  ∀ (s : State) (v : RegNo),
    (s.cfg.bkptPresent = false →
      exec (.bkpt v) s = .next (deliver .illegalInstruction .execute s.pc s.counted)) ∧
    (s.cfg.bkptPresent = true →
      exec (.bkpt v) s = .next (s.edited (bkptCallback s v)).counted ∧
      (s.edited (bkptCallback s v)).opcode = (bkptCallback s v).word ∧
      (s.edited (bkptCallback s v)).run = s.run)

/-- R120, R117, R382: the patterns that only the MC68020 has. On mc68020 each is refused by its name; before it each is
illegal, but for the 32-bit branches, which are branches by -1. The rows that exist from mc68010 on are illegal on
mc68000. -/
def Obligations.ModelRows : Prop :=
  ∀ (s : State) (i : Instr) (name : String) (c : Cond),
    (mc68020Row i = some name →
      exec i s = if s.cfg.model = .mc68020 then .refused (.mc68020Only name)
        else .next (deliver .illegalInstruction .execute s.pc s.started.counted)) ∧
    (s.cfg.model = .mc68020 → exec (.bccL c) s = .refused (.mc68020Only "Bcc.L_BRA.L_BSR.L")) ∧
    (s.cfg.model ≠ .mc68020 → c ≠ .f →
      exec (.bccL c) s = .next (finish true s.pc
        (if condTest c s.flags then { s.started with pc := s.pc + 1 } else s.started))) ∧
    (s.cfg.model ≠ .mc68020 → s.started.canPush = true →
      exec (.bccL .f) s = .next (finish true s.pc { s.started.pushed (s.pc + 2) with pc := s.pc + 1 })) ∧
    (s.cfg.model = .mc68000 → i.onModel .mc68000 = false → i.onModel .mc68010 = true →
      exec i s = .next (deliver .illegalInstruction .execute s.pc s.started.counted))

/-! ## Exceptions -/

/-- R462: the vector, the frame format and the stacked PC of each Operation Result. -/
def Obligations.ExceptionTable : Prop :=
  ∀ (m : Model) (o : Origin) (ia pc : Word) (n : Fin 16),
    let row (e : Exc) (vec fmt : Nat) (spc : Word) : Prop :=
      e.vector = vec ∧ e.format m = fmt ∧ e.stackedPC o ia pc = spc
    let two := if m = .mc68020 then 2 else 0
    let access := if o = .prefetch then pc else ia
    row .busError 2 0 access ∧ row .addressError 3 0 access ∧ row .illegalInstruction 4 0 ia ∧
    row .divisionByZero 5 two pc ∧ row .chkException 6 two pc ∧ row .overflowTrap 7 two pc ∧
    row .privilegeViolation 8 0 ia ∧ row .lineAEmulator 10 0 ia ∧ row .lineFEmulator 11 0 ia ∧
    row .formatError 14 0 ia ∧ row (.trap n) (32 + n.val) 0 pc

/-- R454, R455, R458: taking an exception that succeeds: the frame in supervisor data space below the supervisor stack
pointer, S set and the trace bits clear, PC from the vector, the first word at the handler prefetched; every register
but the active stack pointer and every byte outside the frame as before. -/
def Obligations.ExceptionDelivery : Prop :=
  ∀ (s : State) (e : Exc) (o : Origin) (ia : Word),
    let fmt := e.format s.cfg.model
    let a := s.frameBase e
    let va := s.vbrEff + BitVec.ofNat 32 (4 * e.vector)
    let t := deliver e o ia s
    let v := t.bytesAt 5 va 4
    Memory.wf s.mem → odd s.entered.getSP = false →
    s.cfg.mem.accepts .write 5 a 2 = true → s.cfg.mem.accepts .write 5 (a + 2) 4 = true →
    s.cfg.mem.accepts .write 5 (a + 6) 2 = true → (fmt = 2 → s.cfg.mem.accepts .write 5 (a + 8) 4 = true) →
    odd va = false → s.cfg.mem.accepts .read 5 va 4 = true →
    odd v = false → s.cfg.mem.accepts .read 6 v 2 = true →
    t = { s.entered.setSP a with mem := t.mem, pc := v, opcode := (t.bytesAt 6 v 2).setWidth 16 } ∧
    t.sr = ((s.sr ||| 0x2000#16) &&& 0x3FFF#16) &&& s.cfg.model.srMask ∧
    t.bytesAt 5 a 2 = s.sr.setWidth 32 ∧ t.bytesAt 5 (a + 2) 4 = e.stackedPC o ia s.pc ∧
    t.bytesAt 5 (a + 6) 2 = BitVec.ofNat 32 (fmt * 4096 + 4 * e.vector) ∧
    (fmt = 2 → t.bytesAt 5 (a + 8) 4 = ia) ∧
    ∀ (fc : FC) (b : Word),
      (∀ k < frameBytes fmt, s.cfg.mem.key fc b ≠ s.cfg.mem.key 5 (a + BitVec.ofNat 32 k)) →
      t.byteAt fc b = s.byteAt fc b

/-- R461: a failure while an exception is taken halts the core: an odd stack pointer or a frame write that fails leaves
PC and A7; a vector that cannot be read leaves PC; a handler that cannot be fetched leaves PC at the vector's value. -/
def Obligations.DoubleFault : Prop :=
  ∀ (s : State) (e : Exc) (o : Origin) (ia : Word),
    let fmt := e.format s.cfg.model
    let a := s.frameBase e
    let va := s.vbrEff + BitVec.ofNat 32 (4 * e.vector)
    let t := deliver e o ia s
    (odd s.entered.getSP = true → t = { s.entered with run := .halted }) ∧
    (odd s.entered.getSP = false → (s.framed e o ia).1 = false →
      t = { s.entered with run := .halted, mem := t.mem, draws := t.draws } ∧
      (Memory.wf s.mem → ∀ (fc : FC) (b : Word),
        (∀ k < frameBytes fmt, s.cfg.mem.key fc b ≠ s.cfg.mem.key 5 (a + BitVec.ofNat 32 k)) →
        t.byteAt fc b = s.byteAt fc b)) ∧
    (∀ u, odd s.entered.getSP = false → s.framed e o ia = (true, u) →
      (odd va = true → t = { u.setSP a with run := .halted }) ∧
      (odd va = false → u.memGet 5 va 4 = none → t = { (u.called 5 va 4).setSP a with run := .halted }) ∧
      (∀ v x, odd va = false → u.memGet 5 va 4 = some v →
        let w : State := { (u.called 5 va 4).setSP a with pc := v }
        w.fetchWordAt v = .error x → t = { w.afterFetch v with run := .halted }))

/-- R465, R416, R458: RTE as the first instruction of a handler undoes the exception: every register, the status word
and the three stack pointers are as they were before it, and PC is the stacked PC. -/
def Obligations.ExceptionReturn : Prop :=
  ∀ (s : State) (e : Exc) (o : Origin) (ia : Word),
    let va := s.vbrEff + BitVec.ofNat 32 (4 * e.vector)
    let t := deliver e o ia s
    s.Inv → s.plainHost → s.run = .running → odd s.entered.getSP = false → odd va = false →
    odd (t.bytesAt 5 va 4) = false → t.opcode = 0x4E73#16 →
    step t = .next (finish true t.pc
      { s with pc := e.stackedPC o ia s.pc, mem := t.mem, opcode := 0x4E73#16 })

/-- R469: a privileged row in user mode takes `Privilege_violation`, vector 8, before any extension word is fetched,
with the address of the instruction as the stacked PC. -/
def Obligations.PrivilegeViolation : Prop :=
  ∀ (s : State) (i : Instr),
    privilegedRow s.cfg.model i = true → i.onModel s.cfg.model = true → s.sr.getLsbD 13 = false →
    exec i s = .next (deliver .privilegeViolation .execute s.pc s.started.counted) ∧
    Exc.privilegeViolation.vector = 8 ∧ Exc.privilegeViolation.stackedPC .execute s.pc s.started.counted.pc = s.pc

/-- R71, R72, R78, R132, R135, R463: the first access of an instruction's rule that fails ends it. With every extension
word at hand, the first operand access raises `Address_error` at an odd address for a word or a long, else `Bus_error`
where the host refuses it; and a first extension word that cannot be fetched raises the fetch's own exception. What is
left of the state (`u`): outside what the instruction writes, every register and byte of memory as before, and the system
byte of SR; after a failed fetch also every flag the instruction does not write (log entries 8 and 9). -/
def Obligations.AccessFaults : Prop :=
  ∀ (s : State) (i : Instr), i.wf = true → i.onModel s.cfg.model = true → Memory.wf s.mem →
    (privilegedRow s.cfg.model i = true → s.supervisor = true) →
    let left (u : State) : Prop :=
      s.Frame u (instrWrites s i) (fun r => writesStackReg r i) ∧ u.sr &&& 0xFFE0#16 = s.sr &&& 0xFFE0#16
    (∀ (it : Intent) (fc : FC) (a : Word) (n : Nat),
      s.started.canFetch ((encode i).length - 1) = true →
      (s.cfg.model = .mc68020 → ∀ ea ∈ effectiveAddresses i, refusedBrief ea = false) →
      firstAccess s i = some (it, fc, a, n) →
      (n ≠ 1 ∧ odd a = true →
        ∃ u, exec i s = .next (deliver .addressError .execute s.pc u.counted) ∧ left u) ∧
      (¬ (n ≠ 1 ∧ odd a = true) → s.cfg.mem.answer it fc a n = .refused →
        ∃ u, exec i s = .next (deliver .busError .execute s.pc u.counted) ∧ left u)) ∧
    (∀ e : Exc, 1 < (encode i).length → (∀ sz src, moveSource i = some (sz, src) → eaWordCount sz src ≠ 0) →
      s.fetchWordAt (s.pc + 2) = .error e →
      ∃ u, exec i s = .next (deliver e .execute s.pc u.counted) ∧ left u ∧
        u.sr &&& 0x1F#16 &&& ~~~flagMask i = s.sr &&& 0x1F#16 &&& ~~~flagMask i)

/-! ## The step -/

/-- R490, R131, R116, R117, R130, R105: a core that is not running does not step; a step under trace is refused; else
the step runs the instruction that the words at PC decode to, or takes `Illegal_instruction` where they decode to
none. An instruction that ends `Ok` is counted and, if the core still runs, the next word is prefetched, whose failure
is an exception with origin `prefetch`. -/
def Obligations.StepRunsDecoded : Prop :=
  ∀ (s : State),
    (s.run ≠ .running → step s = .next s) ∧
    (s.run = .running → s.sr.getLsbD 15 = true ∨ s.sr.getLsbD 14 = true → step s = .refused .trace) ∧
    (s.run = .running → s.sr.getLsbD 15 = false → s.sr.getLsbD 14 = false →
      (∀ i rest, decode s.cfg.model s.instrWords = .ok (i, rest) → step s = exec i s) ∧
      (∀ x, decode s.cfg.model s.instrWords = .error x →
        step s = .next (deliver .illegalInstruction .execute s.pc s.started.counted))) ∧
    (∀ ia : Word,
      (s.run ≠ .running → finish true ia s = s.counted) ∧
      (∀ w, s.run = .running → s.fetchWordAt s.pc = .ok w →
        finish true ia s = { s.afterFetch s.pc with opcode := w, icount := s.icount + 1 }) ∧
      (∀ x, s.run = .running → s.fetchWordAt s.pc = .error x →
        finish true ia s = deliver x .prefetch ia (s.afterFetch s.pc).counted))

/-- R100, R104, R116, R130: with an instruction's first word in the opcode register and its other words in program space
after PC, whatever follows them, the step runs that instruction. -/
def Obligations.StepRunsEncoded : Prop :=
  ∀ (s : State) (i : Instr) (w : Half) (ws : List Half),
    i.wf = true → i.onModel s.cfg.model = true → s.run = .running → s.traced = false →
    encode i = w :: ws → s.opcode = w →
    (∀ p ∈ ws.zipIdx, s.fetchable (s.pc + BitVec.ofNat 32 (2 * (p.2 + 1))) = true ∧
      s.fetchWordAt (s.pc + BitVec.ofNat 32 (2 * (p.2 + 1))) = .ok p.1) →
    step s = exec i s

/-- R491, R48: what a step of a running core does to the run condition and the counter, and that nothing but trace and
the patterns of the MC68020 is refused, so that every other step has a next state. -/
def Obligations.RunTransitions : Prop :=
  ∀ (s : State), s.run = .running →
    (∀ r, step s = .refused r → s.traced = true ∧ r = .trace ∨
      s.cfg.model = .mc68020 ∧ (r = .extensionWord68020 ∨ ∃ name, r = .mc68020Only name)) ∧
    (s.traced = false → s.cfg.model ≠ .mc68020 → ∃ t, step s = .next t) ∧
    ∀ t, step s = .next t →
      t.cfg = s.cfg ∧ (s.ownStep → t.icount = s.icount + 1) ∧ t.run ≠ .startup ∧
      (t.run = .stopped ∨ t.run = .finished → s.supervisor = true ∧
        ∃ imm rest, s.fetched = .ok (.stop imm, rest) ∧ (t.run = .finished ↔ imm = 0xFFFF#16)) ∧
      (t.run = .halted → ∃ e o u, u.run = .running ∧ t = deliver e o s.pc u)

/-- R130, R105, R458 (f): a step that leaves the core running ends with the fetch of the word at PC into the opcode
register, PC being even (the step of a BKPT with a callback apart, which substitutes a word); in a space that the host
does not answer on its own that word is still there. -/
def Obligations.PrefetchCoherent : Prop :=
  ∀ (s t : State), s.ownStep → s.run = .running → step s = .next t → t.run = .running →
    odd t.pc = false ∧
    (∃ u : State, u.pc = t.pc ∧ u.fetchWordAt u.pc = .ok t.opcode ∧ t = { u.afterFetch u.pc with opcode := t.opcode }) ∧
    (t.cfg.mem.answer .read t.progFC t.pc 2 ≠ .own → t.fetchWordAt t.pc = .ok t.opcode)

/-- Every step keeps the invariant: memory in its canonical form, and no status bit that the model does not have (R39). -/
def Obligations.StepKeepsInvariant : Prop :=
  ∀ (s t : State), s.Inv → step s = .next t → t.Inv

/-- R467, R468: a step from user mode, but that of a BKPT with a callback, writes no control register; it either stays in user
mode, with the system byte of SR, ISP and MSP unchanged, or becomes supervisor by taking an exception from user mode. -/
def Obligations.UserModeIsolation : Prop :=
  ∀ (s t : State), s.supervisor = false → s.ownStep → step s = .next t →
    t.vbr = s.vbr ∧ t.sfc = s.sfc ∧ t.dfc = s.dfc ∧ t.cacr = s.cacr ∧ t.caar = s.caar ∧
    ((t.supervisor = false ∧ t.sr &&& 0xFFE0#16 = s.sr &&& 0xFFE0#16 ∧ t.isp = s.isp ∧ t.msp = s.msp) ∨
      (t.supervisor = true ∧ ∃ e o u, u.supervisor = false ∧ u.isp = s.isp ∧ u.msp = s.msp ∧
        u.sr &&& 0xFFE0#16 = s.sr &&& 0xFFE0#16 ∧ t = deliver e o s.pc u))

/-! ## What an instruction leaves unchanged -/

/-- R128, R133, R135: the frame of every instruction over registers and memory. `u` is what the instruction leaves, before
the end of the step or the exception it takes; outside the registers and bytes of `instrWrites`, each computed with the
instruction's own expression, every data and address register, stack pointer and byte of memory is as before. -/
def Obligations.RegisterAndMemoryFrame : Prop :=
  ∀ (i : Instr) (s t : State), i.wf = true → Memory.wf s.mem → handsOver s i = false → exec i s = .next t →
    ∃ u, (t = finish true s.pc u ∨ ∃ e, t = deliver e .execute s.pc u.counted) ∧
      s.Frame u (instrWrites s i) (fun r => writesStackReg r i)

/-- R128, R194, R135: the frame of every instruction over the status register, the control registers and the rest of the
state: the system byte only by the rows that write it, a flag only by a row that writes it or by an access that faults,
a control register only by MOVEC, the run condition only by STOP. -/
def Obligations.StatusFrame : Prop :=
  ∀ (i : Instr) (s t : State), handsOver s i = false → exec i s = .next t →
    ∃ u, (((t = finish true s.pc u ∨ ∃ e, e ≠ .busError ∧ e ≠ .addressError ∧ t = deliver e .execute s.pc u.counted) ∧
          u.sr &&& 0x1F#16 &&& ~~~flagMask i = s.sr &&& 0x1F#16 &&& ~~~flagMask i) ∨
        ∃ e, (e = .busError ∨ e = .addressError) ∧ t = deliver e .execute s.pc u.counted) ∧
      (writesSystemByte i = false → u.sr &&& 0xFFE0#16 = s.sr &&& 0xFFE0#16) ∧
      (writesControl i = false → u.vbr = s.vbr ∧ u.sfc = s.sfc ∧ u.dfc = s.dfc ∧ u.cacr = s.cacr ∧ u.caar = s.caar) ∧
      ((∀ imm, i ≠ .stop imm) → u.run = s.run) ∧
      u.opcode = s.opcode ∧ u.cfg = s.cfg ∧ u.icount = s.icount

/-! ## Reset -/

/-- R494, R495: the reset procedure from any state, with memory kept: all registers zero, SR = 0x2700, ISP and PC from the
two vectors in supervisor program space, the first word prefetched; a vector or a first word that cannot be read
halts. -/
def Obligations.ResetProcedure : Prop :=
  ∀ (s : State),
    let t := resetProcedure s
    let s1 := s.called 6 0 4
    let s2 := s1.called 6 4 4
    (∀ n : RegNo, t.getD n = 0) ∧ (∀ n : RegNo, n ≠ 7 → t.getA n = 0) ∧ t.usp = 0 ∧ t.msp = 0 ∧
    t.vbr = 0 ∧ t.sfc = 0 ∧ t.dfc = 0 ∧ t.cacr = 0 ∧ t.caar = 0 ∧ t.sr = 0x2700#16 ∧
    t.mem = s.mem ∧ t.icount = s.icount ∧ t.cfg = s.cfg ∧
    (∀ ssp npc, s.memGet 6 0 4 = some ssp → s1.memGet 6 4 4 = some npc →
      t.isp = ssp ∧ t.pc = npc ∧ t.getA 7 = ssp ∧
      (∀ w, odd npc = false → s2.memGet 6 npc 2 = some w → t.run = .running ∧ t.opcode = w.setWidth 16) ∧
      (odd npc = true ∨ s2.memGet 6 npc 2 = none → t.run = .halted)) ∧
    (s.memGet 6 0 4 = none ∨ s1.memGet 6 4 4 = none → t.run = .halted ∧ t.isp = 0 ∧ t.pc = 0) ∧
    (s.plainHost → s.memGet 6 0 4 = some (s.bytesAt 6 0 4) ∧ s1.memGet 6 4 4 = some (s.bytesAt 6 4 4) ∧ s2 = s)

/-- R498: the first step after a reset runs the word the reset prefetched: a NOP there changes PC by 2 and the counter by
1 (and prefetches the next word). The model's reset state is what the reset procedure makes of empty memory (which
reads 0, log entry 3), and it satisfies the invariant. -/
def Obligations.FirstStepAfterReset : Prop :=
  (∀ (s : State) (w : Half),
    let t := resetProcedure s
    t.run = .running → t.opcode = 0x4E71#16 → t.fetchWordAt (t.pc + 2) = .ok w →
    step t = .next { t.afterFetch (t.pc + 2) with pc := t.pc + 2, opcode := w, icount := t.icount + 1 }) ∧
  (∀ s : State, s.cfg = Params.default → s.mem = [] → s.icount = 0 → s.draws = 0 →
    resetProcedure s = State.reset) ∧
  State.reset.Inv

/-! ## Encoding -/

/-- Decoding what `encode` writes gives the instruction back, with every operand, and leaves the words after it. -/
def Obligations.DecodeEncode : Prop :=
  ∀ (m : Model) (i : Instr) (rest : List Half), i.wf = true → i.onModel m = true →
    decode m (encode i ++ rest) = .ok (i, rest)

/-- What the decoder answers is an instruction of the model (R115, R117), its opcode word is the one read, and as many
words are taken as the instruction has. -/
def Obligations.DecoderSound : Prop :=
  ∀ (m : Model) (ws rest : List Half) (i : Instr), decode m ws = .ok (i, rest) →
    i.wf = true ∧ i.onModel m = true ∧ (encode i).head? = ws.head? ∧
    ws.drop (encode i).length = rest ∧ (encode i).length ≤ ws.length

/-- Words written out from the patterns of R115. -/
def Obligations.DecodedWords : Prop :=
  decode .mc68010 [0x4E71] = .ok (.nop, []) ∧
  decode .mc68010 [0x7001] = .ok (.moveq 0 1, []) ∧
  decode .mc68010 [0xD081] = .ok (.addToReg .l 0 (.dreg 1), []) ∧
  decode .mc68010 [0x23FC, 0x1234, 0x5678, 0x0000, 0x1000] = .ok (.moveL (.imm 0x12345678) (.absL 0x1000), []) ∧
  decode .mc68010 [0x48E7, 0xC0C0] = .ok (.movemToPredec .l 0xC0C0 7, []) ∧
  decode .mc68010 [0x66FA] = .ok (.bcc .ne (.short 0xFA), []) ∧
  decode .mc68010 [0x4E7B, 0x8801] = .ok (.movecTo (.a 0) 0x801, []) ∧
  decode .mc68000 [0x4E7B, 0x8801] = .error .noRow
end

