-- ==== Sys2Proof/Laws/State.lean ====
section
/-! SUPPORT. One lemma for each field of the state and each update: which fields an update leaves alone. -/

namespace Sys2Proof.Machine

@[simp] theorem State.setSR_cfg (s : State) (v : Half) : (s.setSR v).cfg = s.cfg := rfl
@[simp] theorem State.setSR_d (s : State) (v : Half) : (s.setSR v).d = s.d := rfl
@[simp] theorem State.setSR_a (s : State) (v : Half) : (s.setSR v).a = s.a := rfl
@[simp] theorem State.setSR_usp (s : State) (v : Half) : (s.setSR v).usp = s.usp := rfl
@[simp] theorem State.setSR_isp (s : State) (v : Half) : (s.setSR v).isp = s.isp := rfl
@[simp] theorem State.setSR_msp (s : State) (v : Half) : (s.setSR v).msp = s.msp := rfl
@[simp] theorem State.setSR_pc (s : State) (v : Half) : (s.setSR v).pc = s.pc := rfl
@[simp] theorem State.setSR_opcode (s : State) (v : Half) : (s.setSR v).opcode = s.opcode := rfl
@[simp] theorem State.setSR_vbr (s : State) (v : Half) : (s.setSR v).vbr = s.vbr := rfl
@[simp] theorem State.setSR_sfc (s : State) (v : Half) : (s.setSR v).sfc = s.sfc := rfl
@[simp] theorem State.setSR_dfc (s : State) (v : Half) : (s.setSR v).dfc = s.dfc := rfl
@[simp] theorem State.setSR_cacr (s : State) (v : Half) : (s.setSR v).cacr = s.cacr := rfl
@[simp] theorem State.setSR_caar (s : State) (v : Half) : (s.setSR v).caar = s.caar := rfl
@[simp] theorem State.setSR_run (s : State) (v : Half) : (s.setSR v).run = s.run := rfl
@[simp] theorem State.setSR_icount (s : State) (v : Half) : (s.setSR v).icount = s.icount := rfl
@[simp] theorem State.setSR_mem (s : State) (v : Half) : (s.setSR v).mem = s.mem := rfl
@[simp] theorem State.setSR_draws (s : State) (v : Half) : (s.setSR v).draws = s.draws := rfl

@[simp] theorem State.setCCR_cfg (s : State) (v : Byte) : (s.setCCR v).cfg = s.cfg := rfl
@[simp] theorem State.setCCR_d (s : State) (v : Byte) : (s.setCCR v).d = s.d := rfl
@[simp] theorem State.setCCR_a (s : State) (v : Byte) : (s.setCCR v).a = s.a := rfl
@[simp] theorem State.setCCR_usp (s : State) (v : Byte) : (s.setCCR v).usp = s.usp := rfl
@[simp] theorem State.setCCR_isp (s : State) (v : Byte) : (s.setCCR v).isp = s.isp := rfl
@[simp] theorem State.setCCR_msp (s : State) (v : Byte) : (s.setCCR v).msp = s.msp := rfl
@[simp] theorem State.setCCR_pc (s : State) (v : Byte) : (s.setCCR v).pc = s.pc := rfl
@[simp] theorem State.setCCR_opcode (s : State) (v : Byte) : (s.setCCR v).opcode = s.opcode := rfl
@[simp] theorem State.setCCR_vbr (s : State) (v : Byte) : (s.setCCR v).vbr = s.vbr := rfl
@[simp] theorem State.setCCR_sfc (s : State) (v : Byte) : (s.setCCR v).sfc = s.sfc := rfl
@[simp] theorem State.setCCR_dfc (s : State) (v : Byte) : (s.setCCR v).dfc = s.dfc := rfl
@[simp] theorem State.setCCR_cacr (s : State) (v : Byte) : (s.setCCR v).cacr = s.cacr := rfl
@[simp] theorem State.setCCR_caar (s : State) (v : Byte) : (s.setCCR v).caar = s.caar := rfl
@[simp] theorem State.setCCR_run (s : State) (v : Byte) : (s.setCCR v).run = s.run := rfl
@[simp] theorem State.setCCR_icount (s : State) (v : Byte) : (s.setCCR v).icount = s.icount := rfl
@[simp] theorem State.setCCR_mem (s : State) (v : Byte) : (s.setCCR v).mem = s.mem := rfl
@[simp] theorem State.setCCR_draws (s : State) (v : Byte) : (s.setCCR v).draws = s.draws := rfl

@[simp] theorem State.setFlags_cfg (s : State) (f : Ccr) : (s.setFlags f).cfg = s.cfg := rfl
@[simp] theorem State.setFlags_d (s : State) (f : Ccr) : (s.setFlags f).d = s.d := rfl
@[simp] theorem State.setFlags_a (s : State) (f : Ccr) : (s.setFlags f).a = s.a := rfl
@[simp] theorem State.setFlags_usp (s : State) (f : Ccr) : (s.setFlags f).usp = s.usp := rfl
@[simp] theorem State.setFlags_isp (s : State) (f : Ccr) : (s.setFlags f).isp = s.isp := rfl
@[simp] theorem State.setFlags_msp (s : State) (f : Ccr) : (s.setFlags f).msp = s.msp := rfl
@[simp] theorem State.setFlags_pc (s : State) (f : Ccr) : (s.setFlags f).pc = s.pc := rfl
@[simp] theorem State.setFlags_opcode (s : State) (f : Ccr) : (s.setFlags f).opcode = s.opcode := rfl
@[simp] theorem State.setFlags_vbr (s : State) (f : Ccr) : (s.setFlags f).vbr = s.vbr := rfl
@[simp] theorem State.setFlags_sfc (s : State) (f : Ccr) : (s.setFlags f).sfc = s.sfc := rfl
@[simp] theorem State.setFlags_dfc (s : State) (f : Ccr) : (s.setFlags f).dfc = s.dfc := rfl
@[simp] theorem State.setFlags_cacr (s : State) (f : Ccr) : (s.setFlags f).cacr = s.cacr := rfl
@[simp] theorem State.setFlags_caar (s : State) (f : Ccr) : (s.setFlags f).caar = s.caar := rfl
@[simp] theorem State.setFlags_run (s : State) (f : Ccr) : (s.setFlags f).run = s.run := rfl
@[simp] theorem State.setFlags_icount (s : State) (f : Ccr) : (s.setFlags f).icount = s.icount := rfl
@[simp] theorem State.setFlags_mem (s : State) (f : Ccr) : (s.setFlags f).mem = s.mem := rfl
@[simp] theorem State.setFlags_draws (s : State) (f : Ccr) : (s.setFlags f).draws = s.draws := rfl

@[simp] theorem State.setD_cfg (s : State) (n : RegNo) (v : Word) : (s.setD n v).cfg = s.cfg := rfl
@[simp] theorem State.setD_a (s : State) (n : RegNo) (v : Word) : (s.setD n v).a = s.a := rfl
@[simp] theorem State.setD_usp (s : State) (n : RegNo) (v : Word) : (s.setD n v).usp = s.usp := rfl
@[simp] theorem State.setD_isp (s : State) (n : RegNo) (v : Word) : (s.setD n v).isp = s.isp := rfl
@[simp] theorem State.setD_msp (s : State) (n : RegNo) (v : Word) : (s.setD n v).msp = s.msp := rfl
@[simp] theorem State.setD_pc (s : State) (n : RegNo) (v : Word) : (s.setD n v).pc = s.pc := rfl
@[simp] theorem State.setD_opcode (s : State) (n : RegNo) (v : Word) : (s.setD n v).opcode = s.opcode := rfl
@[simp] theorem State.setD_sr (s : State) (n : RegNo) (v : Word) : (s.setD n v).sr = s.sr := rfl
@[simp] theorem State.setD_vbr (s : State) (n : RegNo) (v : Word) : (s.setD n v).vbr = s.vbr := rfl
@[simp] theorem State.setD_sfc (s : State) (n : RegNo) (v : Word) : (s.setD n v).sfc = s.sfc := rfl
@[simp] theorem State.setD_dfc (s : State) (n : RegNo) (v : Word) : (s.setD n v).dfc = s.dfc := rfl
@[simp] theorem State.setD_cacr (s : State) (n : RegNo) (v : Word) : (s.setD n v).cacr = s.cacr := rfl
@[simp] theorem State.setD_caar (s : State) (n : RegNo) (v : Word) : (s.setD n v).caar = s.caar := rfl
@[simp] theorem State.setD_run (s : State) (n : RegNo) (v : Word) : (s.setD n v).run = s.run := rfl
@[simp] theorem State.setD_icount (s : State) (n : RegNo) (v : Word) : (s.setD n v).icount = s.icount := rfl
@[simp] theorem State.setD_mem (s : State) (n : RegNo) (v : Word) : (s.setD n v).mem = s.mem := rfl
@[simp] theorem State.setD_draws (s : State) (n : RegNo) (v : Word) : (s.setD n v).draws = s.draws := rfl

@[simp] theorem State.setDSized_cfg (s : State) (sz : Size) (n : RegNo) (v : Word) : (s.setDSized sz n v).cfg = s.cfg := rfl
@[simp] theorem State.setDSized_a (s : State) (sz : Size) (n : RegNo) (v : Word) : (s.setDSized sz n v).a = s.a := rfl
@[simp] theorem State.setDSized_usp (s : State) (sz : Size) (n : RegNo) (v : Word) : (s.setDSized sz n v).usp = s.usp := rfl
@[simp] theorem State.setDSized_isp (s : State) (sz : Size) (n : RegNo) (v : Word) : (s.setDSized sz n v).isp = s.isp := rfl
@[simp] theorem State.setDSized_msp (s : State) (sz : Size) (n : RegNo) (v : Word) : (s.setDSized sz n v).msp = s.msp := rfl
@[simp] theorem State.setDSized_pc (s : State) (sz : Size) (n : RegNo) (v : Word) : (s.setDSized sz n v).pc = s.pc := rfl
@[simp] theorem State.setDSized_opcode (s : State) (sz : Size) (n : RegNo) (v : Word) : (s.setDSized sz n v).opcode = s.opcode := rfl
@[simp] theorem State.setDSized_sr (s : State) (sz : Size) (n : RegNo) (v : Word) : (s.setDSized sz n v).sr = s.sr := rfl
@[simp] theorem State.setDSized_vbr (s : State) (sz : Size) (n : RegNo) (v : Word) : (s.setDSized sz n v).vbr = s.vbr := rfl
@[simp] theorem State.setDSized_sfc (s : State) (sz : Size) (n : RegNo) (v : Word) : (s.setDSized sz n v).sfc = s.sfc := rfl
@[simp] theorem State.setDSized_dfc (s : State) (sz : Size) (n : RegNo) (v : Word) : (s.setDSized sz n v).dfc = s.dfc := rfl
@[simp] theorem State.setDSized_cacr (s : State) (sz : Size) (n : RegNo) (v : Word) : (s.setDSized sz n v).cacr = s.cacr := rfl
@[simp] theorem State.setDSized_caar (s : State) (sz : Size) (n : RegNo) (v : Word) : (s.setDSized sz n v).caar = s.caar := rfl
@[simp] theorem State.setDSized_run (s : State) (sz : Size) (n : RegNo) (v : Word) : (s.setDSized sz n v).run = s.run := rfl
@[simp] theorem State.setDSized_icount (s : State) (sz : Size) (n : RegNo) (v : Word) : (s.setDSized sz n v).icount = s.icount := rfl
@[simp] theorem State.setDSized_mem (s : State) (sz : Size) (n : RegNo) (v : Word) : (s.setDSized sz n v).mem = s.mem := rfl
@[simp] theorem State.setDSized_draws (s : State) (sz : Size) (n : RegNo) (v : Word) : (s.setDSized sz n v).draws = s.draws := rfl

@[simp] theorem State.setSP_cfg (s : State) (v : Word) : (s.setSP v).cfg = s.cfg := by unfold State.setSP; split <;> rfl
@[simp] theorem State.setSP_d (s : State) (v : Word) : (s.setSP v).d = s.d := by unfold State.setSP; split <;> rfl
@[simp] theorem State.setSP_a (s : State) (v : Word) : (s.setSP v).a = s.a := by unfold State.setSP; split <;> rfl
@[simp] theorem State.setSP_pc (s : State) (v : Word) : (s.setSP v).pc = s.pc := by unfold State.setSP; split <;> rfl
@[simp] theorem State.setSP_opcode (s : State) (v : Word) : (s.setSP v).opcode = s.opcode := by unfold State.setSP; split <;> rfl
@[simp] theorem State.setSP_sr (s : State) (v : Word) : (s.setSP v).sr = s.sr := by unfold State.setSP; split <;> rfl
@[simp] theorem State.setSP_vbr (s : State) (v : Word) : (s.setSP v).vbr = s.vbr := by unfold State.setSP; split <;> rfl
@[simp] theorem State.setSP_sfc (s : State) (v : Word) : (s.setSP v).sfc = s.sfc := by unfold State.setSP; split <;> rfl
@[simp] theorem State.setSP_dfc (s : State) (v : Word) : (s.setSP v).dfc = s.dfc := by unfold State.setSP; split <;> rfl
@[simp] theorem State.setSP_cacr (s : State) (v : Word) : (s.setSP v).cacr = s.cacr := by unfold State.setSP; split <;> rfl
@[simp] theorem State.setSP_caar (s : State) (v : Word) : (s.setSP v).caar = s.caar := by unfold State.setSP; split <;> rfl
@[simp] theorem State.setSP_run (s : State) (v : Word) : (s.setSP v).run = s.run := by unfold State.setSP; split <;> rfl
@[simp] theorem State.setSP_icount (s : State) (v : Word) : (s.setSP v).icount = s.icount := by unfold State.setSP; split <;> rfl
@[simp] theorem State.setSP_mem (s : State) (v : Word) : (s.setSP v).mem = s.mem := by unfold State.setSP; split <;> rfl
@[simp] theorem State.setSP_draws (s : State) (v : Word) : (s.setSP v).draws = s.draws := by unfold State.setSP; split <;> rfl

@[simp] theorem State.setA_cfg (s : State) (n : RegNo) (v : Word) : (s.setA n v).cfg = s.cfg := by unfold State.setA; split <;> simp
@[simp] theorem State.setA_d (s : State) (n : RegNo) (v : Word) : (s.setA n v).d = s.d := by unfold State.setA; split <;> simp
@[simp] theorem State.setA_pc (s : State) (n : RegNo) (v : Word) : (s.setA n v).pc = s.pc := by unfold State.setA; split <;> simp
@[simp] theorem State.setA_opcode (s : State) (n : RegNo) (v : Word) : (s.setA n v).opcode = s.opcode := by unfold State.setA; split <;> simp
@[simp] theorem State.setA_sr (s : State) (n : RegNo) (v : Word) : (s.setA n v).sr = s.sr := by unfold State.setA; split <;> simp
@[simp] theorem State.setA_vbr (s : State) (n : RegNo) (v : Word) : (s.setA n v).vbr = s.vbr := by unfold State.setA; split <;> simp
@[simp] theorem State.setA_sfc (s : State) (n : RegNo) (v : Word) : (s.setA n v).sfc = s.sfc := by unfold State.setA; split <;> simp
@[simp] theorem State.setA_dfc (s : State) (n : RegNo) (v : Word) : (s.setA n v).dfc = s.dfc := by unfold State.setA; split <;> simp
@[simp] theorem State.setA_cacr (s : State) (n : RegNo) (v : Word) : (s.setA n v).cacr = s.cacr := by unfold State.setA; split <;> simp
@[simp] theorem State.setA_caar (s : State) (n : RegNo) (v : Word) : (s.setA n v).caar = s.caar := by unfold State.setA; split <;> simp
@[simp] theorem State.setA_run (s : State) (n : RegNo) (v : Word) : (s.setA n v).run = s.run := by unfold State.setA; split <;> simp
@[simp] theorem State.setA_icount (s : State) (n : RegNo) (v : Word) : (s.setA n v).icount = s.icount := by unfold State.setA; split <;> simp
@[simp] theorem State.setA_mem (s : State) (n : RegNo) (v : Word) : (s.setA n v).mem = s.mem := by unfold State.setA; split <;> simp
@[simp] theorem State.setA_draws (s : State) (n : RegNo) (v : Word) : (s.setA n v).draws = s.draws := by unfold State.setA; split <;> simp

@[simp] theorem State.putByte_cfg (s : State) (fc : FC) (a : Word) (b : Byte) : (s.putByte fc a b).cfg = s.cfg := rfl
@[simp] theorem State.putByte_d (s : State) (fc : FC) (a : Word) (b : Byte) : (s.putByte fc a b).d = s.d := rfl
@[simp] theorem State.putByte_a (s : State) (fc : FC) (a : Word) (b : Byte) : (s.putByte fc a b).a = s.a := rfl
@[simp] theorem State.putByte_usp (s : State) (fc : FC) (a : Word) (b : Byte) : (s.putByte fc a b).usp = s.usp := rfl
@[simp] theorem State.putByte_isp (s : State) (fc : FC) (a : Word) (b : Byte) : (s.putByte fc a b).isp = s.isp := rfl
@[simp] theorem State.putByte_msp (s : State) (fc : FC) (a : Word) (b : Byte) : (s.putByte fc a b).msp = s.msp := rfl
@[simp] theorem State.putByte_pc (s : State) (fc : FC) (a : Word) (b : Byte) : (s.putByte fc a b).pc = s.pc := rfl
@[simp] theorem State.putByte_opcode (s : State) (fc : FC) (a : Word) (b : Byte) : (s.putByte fc a b).opcode = s.opcode := rfl
@[simp] theorem State.putByte_sr (s : State) (fc : FC) (a : Word) (b : Byte) : (s.putByte fc a b).sr = s.sr := rfl
@[simp] theorem State.putByte_vbr (s : State) (fc : FC) (a : Word) (b : Byte) : (s.putByte fc a b).vbr = s.vbr := rfl
@[simp] theorem State.putByte_sfc (s : State) (fc : FC) (a : Word) (b : Byte) : (s.putByte fc a b).sfc = s.sfc := rfl
@[simp] theorem State.putByte_dfc (s : State) (fc : FC) (a : Word) (b : Byte) : (s.putByte fc a b).dfc = s.dfc := rfl
@[simp] theorem State.putByte_cacr (s : State) (fc : FC) (a : Word) (b : Byte) : (s.putByte fc a b).cacr = s.cacr := rfl
@[simp] theorem State.putByte_caar (s : State) (fc : FC) (a : Word) (b : Byte) : (s.putByte fc a b).caar = s.caar := rfl
@[simp] theorem State.putByte_run (s : State) (fc : FC) (a : Word) (b : Byte) : (s.putByte fc a b).run = s.run := rfl
@[simp] theorem State.putByte_icount (s : State) (fc : FC) (a : Word) (b : Byte) : (s.putByte fc a b).icount = s.icount := rfl
@[simp] theorem State.putByte_draws (s : State) (fc : FC) (a : Word) (b : Byte) : (s.putByte fc a b).draws = s.draws := rfl

@[simp] theorem State.skip_cfg (s : State) (n : Nat) : (s.skip n).cfg = s.cfg := rfl
@[simp] theorem State.skip_d (s : State) (n : Nat) : (s.skip n).d = s.d := rfl
@[simp] theorem State.skip_a (s : State) (n : Nat) : (s.skip n).a = s.a := rfl
@[simp] theorem State.skip_usp (s : State) (n : Nat) : (s.skip n).usp = s.usp := rfl
@[simp] theorem State.skip_isp (s : State) (n : Nat) : (s.skip n).isp = s.isp := rfl
@[simp] theorem State.skip_msp (s : State) (n : Nat) : (s.skip n).msp = s.msp := rfl
@[simp] theorem State.skip_opcode (s : State) (n : Nat) : (s.skip n).opcode = s.opcode := rfl
@[simp] theorem State.skip_sr (s : State) (n : Nat) : (s.skip n).sr = s.sr := rfl
@[simp] theorem State.skip_vbr (s : State) (n : Nat) : (s.skip n).vbr = s.vbr := rfl
@[simp] theorem State.skip_sfc (s : State) (n : Nat) : (s.skip n).sfc = s.sfc := rfl
@[simp] theorem State.skip_dfc (s : State) (n : Nat) : (s.skip n).dfc = s.dfc := rfl
@[simp] theorem State.skip_cacr (s : State) (n : Nat) : (s.skip n).cacr = s.cacr := rfl
@[simp] theorem State.skip_caar (s : State) (n : Nat) : (s.skip n).caar = s.caar := rfl
@[simp] theorem State.skip_run (s : State) (n : Nat) : (s.skip n).run = s.run := rfl
@[simp] theorem State.skip_icount (s : State) (n : Nat) : (s.skip n).icount = s.icount := rfl
@[simp] theorem State.skip_mem (s : State) (n : Nat) : (s.skip n).mem = s.mem := rfl
@[simp] theorem State.skip_draws (s : State) (n : Nat) : (s.skip n).draws = s.draws := rfl

@[simp] theorem State.started_cfg (s : State) : (s.started).cfg = s.cfg := rfl
@[simp] theorem State.started_d (s : State) : (s.started).d = s.d := rfl
@[simp] theorem State.started_a (s : State) : (s.started).a = s.a := rfl
@[simp] theorem State.started_usp (s : State) : (s.started).usp = s.usp := rfl
@[simp] theorem State.started_isp (s : State) : (s.started).isp = s.isp := rfl
@[simp] theorem State.started_msp (s : State) : (s.started).msp = s.msp := rfl
@[simp] theorem State.started_opcode (s : State) : (s.started).opcode = s.opcode := rfl
@[simp] theorem State.started_sr (s : State) : (s.started).sr = s.sr := rfl
@[simp] theorem State.started_vbr (s : State) : (s.started).vbr = s.vbr := rfl
@[simp] theorem State.started_sfc (s : State) : (s.started).sfc = s.sfc := rfl
@[simp] theorem State.started_dfc (s : State) : (s.started).dfc = s.dfc := rfl
@[simp] theorem State.started_cacr (s : State) : (s.started).cacr = s.cacr := rfl
@[simp] theorem State.started_caar (s : State) : (s.started).caar = s.caar := rfl
@[simp] theorem State.started_run (s : State) : (s.started).run = s.run := rfl
@[simp] theorem State.started_icount (s : State) : (s.started).icount = s.icount := rfl
@[simp] theorem State.started_mem (s : State) : (s.started).mem = s.mem := rfl
@[simp] theorem State.started_draws (s : State) : (s.started).draws = s.draws := rfl

@[simp] theorem State.counted_cfg (s : State) : (s.counted).cfg = s.cfg := rfl
@[simp] theorem State.counted_d (s : State) : (s.counted).d = s.d := rfl
@[simp] theorem State.counted_a (s : State) : (s.counted).a = s.a := rfl
@[simp] theorem State.counted_usp (s : State) : (s.counted).usp = s.usp := rfl
@[simp] theorem State.counted_isp (s : State) : (s.counted).isp = s.isp := rfl
@[simp] theorem State.counted_msp (s : State) : (s.counted).msp = s.msp := rfl
@[simp] theorem State.counted_pc (s : State) : (s.counted).pc = s.pc := rfl
@[simp] theorem State.counted_opcode (s : State) : (s.counted).opcode = s.opcode := rfl
@[simp] theorem State.counted_sr (s : State) : (s.counted).sr = s.sr := rfl
@[simp] theorem State.counted_vbr (s : State) : (s.counted).vbr = s.vbr := rfl
@[simp] theorem State.counted_sfc (s : State) : (s.counted).sfc = s.sfc := rfl
@[simp] theorem State.counted_dfc (s : State) : (s.counted).dfc = s.dfc := rfl
@[simp] theorem State.counted_cacr (s : State) : (s.counted).cacr = s.cacr := rfl
@[simp] theorem State.counted_caar (s : State) : (s.counted).caar = s.caar := rfl
@[simp] theorem State.counted_run (s : State) : (s.counted).run = s.run := rfl
@[simp] theorem State.counted_mem (s : State) : (s.counted).mem = s.mem := rfl
@[simp] theorem State.counted_draws (s : State) : (s.counted).draws = s.draws := rfl

@[simp] theorem State.halt_cfg (s : State) : (s.halt).cfg = s.cfg := rfl
@[simp] theorem State.halt_d (s : State) : (s.halt).d = s.d := rfl
@[simp] theorem State.halt_a (s : State) : (s.halt).a = s.a := rfl
@[simp] theorem State.halt_usp (s : State) : (s.halt).usp = s.usp := rfl
@[simp] theorem State.halt_isp (s : State) : (s.halt).isp = s.isp := rfl
@[simp] theorem State.halt_msp (s : State) : (s.halt).msp = s.msp := rfl
@[simp] theorem State.halt_pc (s : State) : (s.halt).pc = s.pc := rfl
@[simp] theorem State.halt_opcode (s : State) : (s.halt).opcode = s.opcode := rfl
@[simp] theorem State.halt_sr (s : State) : (s.halt).sr = s.sr := rfl
@[simp] theorem State.halt_vbr (s : State) : (s.halt).vbr = s.vbr := rfl
@[simp] theorem State.halt_sfc (s : State) : (s.halt).sfc = s.sfc := rfl
@[simp] theorem State.halt_dfc (s : State) : (s.halt).dfc = s.dfc := rfl
@[simp] theorem State.halt_cacr (s : State) : (s.halt).cacr = s.cacr := rfl
@[simp] theorem State.halt_caar (s : State) : (s.halt).caar = s.caar := rfl
@[simp] theorem State.halt_icount (s : State) : (s.halt).icount = s.icount := rfl
@[simp] theorem State.halt_mem (s : State) : (s.halt).mem = s.mem := rfl
@[simp] theorem State.halt_draws (s : State) : (s.halt).draws = s.draws := rfl

@[simp] theorem State.drawCCR_cfg (s : State) : (s.drawCCR).cfg = s.cfg := rfl
@[simp] theorem State.drawCCR_d (s : State) : (s.drawCCR).d = s.d := rfl
@[simp] theorem State.drawCCR_a (s : State) : (s.drawCCR).a = s.a := rfl
@[simp] theorem State.drawCCR_usp (s : State) : (s.drawCCR).usp = s.usp := rfl
@[simp] theorem State.drawCCR_isp (s : State) : (s.drawCCR).isp = s.isp := rfl
@[simp] theorem State.drawCCR_msp (s : State) : (s.drawCCR).msp = s.msp := rfl
@[simp] theorem State.drawCCR_pc (s : State) : (s.drawCCR).pc = s.pc := rfl
@[simp] theorem State.drawCCR_opcode (s : State) : (s.drawCCR).opcode = s.opcode := rfl
@[simp] theorem State.drawCCR_vbr (s : State) : (s.drawCCR).vbr = s.vbr := rfl
@[simp] theorem State.drawCCR_sfc (s : State) : (s.drawCCR).sfc = s.sfc := rfl
@[simp] theorem State.drawCCR_dfc (s : State) : (s.drawCCR).dfc = s.dfc := rfl
@[simp] theorem State.drawCCR_cacr (s : State) : (s.drawCCR).cacr = s.cacr := rfl
@[simp] theorem State.drawCCR_caar (s : State) : (s.drawCCR).caar = s.caar := rfl
@[simp] theorem State.drawCCR_run (s : State) : (s.drawCCR).run = s.run := rfl
@[simp] theorem State.drawCCR_icount (s : State) : (s.drawCCR).icount = s.icount := rfl
@[simp] theorem State.drawCCR_mem (s : State) : (s.drawCCR).mem = s.mem := rfl

@[simp] theorem State.putBytes_cfg (s : State) (fc : FC) (a v : Word) (n : Nat) : (s.putBytes fc a v n).cfg = s.cfg := by
  induction n generalizing s a with
  | zero => rfl
  | succ n ih => simp [State.putBytes, ih]
@[simp] theorem State.putBytes_d (s : State) (fc : FC) (a v : Word) (n : Nat) : (s.putBytes fc a v n).d = s.d := by
  induction n generalizing s a with
  | zero => rfl
  | succ n ih => simp [State.putBytes, ih]
@[simp] theorem State.putBytes_a (s : State) (fc : FC) (a v : Word) (n : Nat) : (s.putBytes fc a v n).a = s.a := by
  induction n generalizing s a with
  | zero => rfl
  | succ n ih => simp [State.putBytes, ih]
@[simp] theorem State.putBytes_usp (s : State) (fc : FC) (a v : Word) (n : Nat) : (s.putBytes fc a v n).usp = s.usp := by
  induction n generalizing s a with
  | zero => rfl
  | succ n ih => simp [State.putBytes, ih]
@[simp] theorem State.putBytes_isp (s : State) (fc : FC) (a v : Word) (n : Nat) : (s.putBytes fc a v n).isp = s.isp := by
  induction n generalizing s a with
  | zero => rfl
  | succ n ih => simp [State.putBytes, ih]
@[simp] theorem State.putBytes_msp (s : State) (fc : FC) (a v : Word) (n : Nat) : (s.putBytes fc a v n).msp = s.msp := by
  induction n generalizing s a with
  | zero => rfl
  | succ n ih => simp [State.putBytes, ih]
@[simp] theorem State.putBytes_pc (s : State) (fc : FC) (a v : Word) (n : Nat) : (s.putBytes fc a v n).pc = s.pc := by
  induction n generalizing s a with
  | zero => rfl
  | succ n ih => simp [State.putBytes, ih]
@[simp] theorem State.putBytes_opcode (s : State) (fc : FC) (a v : Word) (n : Nat) : (s.putBytes fc a v n).opcode = s.opcode := by
  induction n generalizing s a with
  | zero => rfl
  | succ n ih => simp [State.putBytes, ih]
@[simp] theorem State.putBytes_sr (s : State) (fc : FC) (a v : Word) (n : Nat) : (s.putBytes fc a v n).sr = s.sr := by
  induction n generalizing s a with
  | zero => rfl
  | succ n ih => simp [State.putBytes, ih]
@[simp] theorem State.putBytes_vbr (s : State) (fc : FC) (a v : Word) (n : Nat) : (s.putBytes fc a v n).vbr = s.vbr := by
  induction n generalizing s a with
  | zero => rfl
  | succ n ih => simp [State.putBytes, ih]
@[simp] theorem State.putBytes_sfc (s : State) (fc : FC) (a v : Word) (n : Nat) : (s.putBytes fc a v n).sfc = s.sfc := by
  induction n generalizing s a with
  | zero => rfl
  | succ n ih => simp [State.putBytes, ih]
@[simp] theorem State.putBytes_dfc (s : State) (fc : FC) (a v : Word) (n : Nat) : (s.putBytes fc a v n).dfc = s.dfc := by
  induction n generalizing s a with
  | zero => rfl
  | succ n ih => simp [State.putBytes, ih]
@[simp] theorem State.putBytes_cacr (s : State) (fc : FC) (a v : Word) (n : Nat) : (s.putBytes fc a v n).cacr = s.cacr := by
  induction n generalizing s a with
  | zero => rfl
  | succ n ih => simp [State.putBytes, ih]
@[simp] theorem State.putBytes_caar (s : State) (fc : FC) (a v : Word) (n : Nat) : (s.putBytes fc a v n).caar = s.caar := by
  induction n generalizing s a with
  | zero => rfl
  | succ n ih => simp [State.putBytes, ih]
@[simp] theorem State.putBytes_run (s : State) (fc : FC) (a v : Word) (n : Nat) : (s.putBytes fc a v n).run = s.run := by
  induction n generalizing s a with
  | zero => rfl
  | succ n ih => simp [State.putBytes, ih]
@[simp] theorem State.putBytes_icount (s : State) (fc : FC) (a v : Word) (n : Nat) : (s.putBytes fc a v n).icount = s.icount := by
  induction n generalizing s a with
  | zero => rfl
  | succ n ih => simp [State.putBytes, ih]
@[simp] theorem State.putBytes_draws (s : State) (fc : FC) (a v : Word) (n : Nat) : (s.putBytes fc a v n).draws = s.draws := by
  induction n generalizing s a with
  | zero => rfl
  | succ n ih => simp [State.putBytes, ih]

@[simp] theorem State.sideEffect_cfg (s : State) (ea : Ea) (sz : Size) : (s.sideEffect ea sz).cfg = s.cfg := by unfold State.sideEffect; split <;> simp
@[simp] theorem State.sideEffect_d (s : State) (ea : Ea) (sz : Size) : (s.sideEffect ea sz).d = s.d := by unfold State.sideEffect; split <;> simp
@[simp] theorem State.sideEffect_pc (s : State) (ea : Ea) (sz : Size) : (s.sideEffect ea sz).pc = s.pc := by unfold State.sideEffect; split <;> simp
@[simp] theorem State.sideEffect_opcode (s : State) (ea : Ea) (sz : Size) : (s.sideEffect ea sz).opcode = s.opcode := by unfold State.sideEffect; split <;> simp
@[simp] theorem State.sideEffect_sr (s : State) (ea : Ea) (sz : Size) : (s.sideEffect ea sz).sr = s.sr := by unfold State.sideEffect; split <;> simp
@[simp] theorem State.sideEffect_vbr (s : State) (ea : Ea) (sz : Size) : (s.sideEffect ea sz).vbr = s.vbr := by unfold State.sideEffect; split <;> simp
@[simp] theorem State.sideEffect_sfc (s : State) (ea : Ea) (sz : Size) : (s.sideEffect ea sz).sfc = s.sfc := by unfold State.sideEffect; split <;> simp
@[simp] theorem State.sideEffect_dfc (s : State) (ea : Ea) (sz : Size) : (s.sideEffect ea sz).dfc = s.dfc := by unfold State.sideEffect; split <;> simp
@[simp] theorem State.sideEffect_cacr (s : State) (ea : Ea) (sz : Size) : (s.sideEffect ea sz).cacr = s.cacr := by unfold State.sideEffect; split <;> simp
@[simp] theorem State.sideEffect_caar (s : State) (ea : Ea) (sz : Size) : (s.sideEffect ea sz).caar = s.caar := by unfold State.sideEffect; split <;> simp
@[simp] theorem State.sideEffect_run (s : State) (ea : Ea) (sz : Size) : (s.sideEffect ea sz).run = s.run := by unfold State.sideEffect; split <;> simp
@[simp] theorem State.sideEffect_icount (s : State) (ea : Ea) (sz : Size) : (s.sideEffect ea sz).icount = s.icount := by unfold State.sideEffect; split <;> simp
@[simp] theorem State.sideEffect_mem (s : State) (ea : Ea) (sz : Size) : (s.sideEffect ea sz).mem = s.mem := by unfold State.sideEffect; split <;> simp
@[simp] theorem State.sideEffect_draws (s : State) (ea : Ea) (sz : Size) : (s.sideEffect ea sz).draws = s.draws := by unfold State.sideEffect; split <;> simp

@[simp] theorem State.afterEA_cfg (s : State) (ea : Ea) (sz : Size) : (s.afterEA ea sz).cfg = s.cfg := by simp [State.afterEA]
@[simp] theorem State.afterEA_d (s : State) (ea : Ea) (sz : Size) : (s.afterEA ea sz).d = s.d := by simp [State.afterEA]
@[simp] theorem State.afterEA_opcode (s : State) (ea : Ea) (sz : Size) : (s.afterEA ea sz).opcode = s.opcode := by simp [State.afterEA]
@[simp] theorem State.afterEA_sr (s : State) (ea : Ea) (sz : Size) : (s.afterEA ea sz).sr = s.sr := by simp [State.afterEA]
@[simp] theorem State.afterEA_vbr (s : State) (ea : Ea) (sz : Size) : (s.afterEA ea sz).vbr = s.vbr := by simp [State.afterEA]
@[simp] theorem State.afterEA_sfc (s : State) (ea : Ea) (sz : Size) : (s.afterEA ea sz).sfc = s.sfc := by simp [State.afterEA]
@[simp] theorem State.afterEA_dfc (s : State) (ea : Ea) (sz : Size) : (s.afterEA ea sz).dfc = s.dfc := by simp [State.afterEA]
@[simp] theorem State.afterEA_cacr (s : State) (ea : Ea) (sz : Size) : (s.afterEA ea sz).cacr = s.cacr := by simp [State.afterEA]
@[simp] theorem State.afterEA_caar (s : State) (ea : Ea) (sz : Size) : (s.afterEA ea sz).caar = s.caar := by simp [State.afterEA]
@[simp] theorem State.afterEA_run (s : State) (ea : Ea) (sz : Size) : (s.afterEA ea sz).run = s.run := by simp [State.afterEA]
@[simp] theorem State.afterEA_icount (s : State) (ea : Ea) (sz : Size) : (s.afterEA ea sz).icount = s.icount := by simp [State.afterEA]
@[simp] theorem State.afterEA_mem (s : State) (ea : Ea) (sz : Size) : (s.afterEA ea sz).mem = s.mem := by simp [State.afterEA]
@[simp] theorem State.afterEA_draws (s : State) (ea : Ea) (sz : Size) : (s.afterEA ea sz).draws = s.draws := by simp [State.afterEA]

/-! ## Observers of the status register -/

@[simp] theorem State.stored_cfg (s : State) (loc : Loc) (sz : Size) (v : Word) : (s.stored loc sz v).cfg = s.cfg := by unfold State.stored; split <;> simp
@[simp] theorem State.stored_pc (s : State) (loc : Loc) (sz : Size) (v : Word) : (s.stored loc sz v).pc = s.pc := by unfold State.stored; split <;> simp
@[simp] theorem State.stored_opcode (s : State) (loc : Loc) (sz : Size) (v : Word) : (s.stored loc sz v).opcode = s.opcode := by unfold State.stored; split <;> simp
@[simp] theorem State.stored_sr (s : State) (loc : Loc) (sz : Size) (v : Word) : (s.stored loc sz v).sr = s.sr := by unfold State.stored; split <;> simp
@[simp] theorem State.stored_vbr (s : State) (loc : Loc) (sz : Size) (v : Word) : (s.stored loc sz v).vbr = s.vbr := by unfold State.stored; split <;> simp
@[simp] theorem State.stored_sfc (s : State) (loc : Loc) (sz : Size) (v : Word) : (s.stored loc sz v).sfc = s.sfc := by unfold State.stored; split <;> simp
@[simp] theorem State.stored_dfc (s : State) (loc : Loc) (sz : Size) (v : Word) : (s.stored loc sz v).dfc = s.dfc := by unfold State.stored; split <;> simp
@[simp] theorem State.stored_cacr (s : State) (loc : Loc) (sz : Size) (v : Word) : (s.stored loc sz v).cacr = s.cacr := by unfold State.stored; split <;> simp
@[simp] theorem State.stored_caar (s : State) (loc : Loc) (sz : Size) (v : Word) : (s.stored loc sz v).caar = s.caar := by unfold State.stored; split <;> simp
@[simp] theorem State.stored_run (s : State) (loc : Loc) (sz : Size) (v : Word) : (s.stored loc sz v).run = s.run := by unfold State.stored; split <;> simp
@[simp] theorem State.stored_icount (s : State) (loc : Loc) (sz : Size) (v : Word) : (s.stored loc sz v).icount = s.icount := by unfold State.stored; split <;> simp
@[simp] theorem State.stored_draws (s : State) (loc : Loc) (sz : Size) (v : Word) : (s.stored loc sz v).draws = s.draws := by unfold State.stored; split <;> simp

@[simp] theorem State.pushed_cfg (s : State) (v : Word) : (s.pushed v).cfg = s.cfg := by simp [State.pushed]
@[simp] theorem State.pushed_pc (s : State) (v : Word) : (s.pushed v).pc = s.pc := by simp [State.pushed]
@[simp] theorem State.pushed_opcode (s : State) (v : Word) : (s.pushed v).opcode = s.opcode := by simp [State.pushed]
@[simp] theorem State.pushed_sr (s : State) (v : Word) : (s.pushed v).sr = s.sr := by simp [State.pushed]
@[simp] theorem State.pushed_vbr (s : State) (v : Word) : (s.pushed v).vbr = s.vbr := by simp [State.pushed]
@[simp] theorem State.pushed_sfc (s : State) (v : Word) : (s.pushed v).sfc = s.sfc := by simp [State.pushed]
@[simp] theorem State.pushed_dfc (s : State) (v : Word) : (s.pushed v).dfc = s.dfc := by simp [State.pushed]
@[simp] theorem State.pushed_cacr (s : State) (v : Word) : (s.pushed v).cacr = s.cacr := by simp [State.pushed]
@[simp] theorem State.pushed_caar (s : State) (v : Word) : (s.pushed v).caar = s.caar := by simp [State.pushed]
@[simp] theorem State.pushed_run (s : State) (v : Word) : (s.pushed v).run = s.run := by simp [State.pushed]
@[simp] theorem State.pushed_icount (s : State) (v : Word) : (s.pushed v).icount = s.icount := by simp [State.pushed]
@[simp] theorem State.pushed_draws (s : State) (v : Word) : (s.pushed v).draws = s.draws := by simp [State.pushed]

@[simp] theorem State.supervisor_setD (s : State) (n : RegNo) (v : Word) : (s.setD n v).supervisor = s.supervisor := by
  simp [State.supervisor]
@[simp] theorem State.progFC_setD (s : State) (n : RegNo) (v : Word) : (s.setD n v).progFC = s.progFC := by
  simp [State.progFC, State.supervisor]
@[simp] theorem State.dataFC_setD (s : State) (n : RegNo) (v : Word) : (s.setD n v).dataFC = s.dataFC := by
  simp [State.dataFC, State.supervisor]
@[simp] theorem State.flags_setD (s : State) (n : RegNo) (v : Word) : (s.setD n v).flags = s.flags := by
  simp [State.flags]

@[simp] theorem State.supervisor_setDSized (s : State) (sz : Size) (n : RegNo) (v : Word) : (s.setDSized sz n v).supervisor = s.supervisor := by
  simp [State.supervisor]
@[simp] theorem State.progFC_setDSized (s : State) (sz : Size) (n : RegNo) (v : Word) : (s.setDSized sz n v).progFC = s.progFC := by
  simp [State.progFC, State.supervisor]
@[simp] theorem State.dataFC_setDSized (s : State) (sz : Size) (n : RegNo) (v : Word) : (s.setDSized sz n v).dataFC = s.dataFC := by
  simp [State.dataFC, State.supervisor]
@[simp] theorem State.flags_setDSized (s : State) (sz : Size) (n : RegNo) (v : Word) : (s.setDSized sz n v).flags = s.flags := by
  simp [State.flags]

@[simp] theorem State.supervisor_setSP (s : State) (v : Word) : (s.setSP v).supervisor = s.supervisor := by
  simp [State.supervisor]
@[simp] theorem State.progFC_setSP (s : State) (v : Word) : (s.setSP v).progFC = s.progFC := by
  simp [State.progFC, State.supervisor]
@[simp] theorem State.dataFC_setSP (s : State) (v : Word) : (s.setSP v).dataFC = s.dataFC := by
  simp [State.dataFC, State.supervisor]
@[simp] theorem State.flags_setSP (s : State) (v : Word) : (s.setSP v).flags = s.flags := by
  simp [State.flags]

@[simp] theorem State.supervisor_setA (s : State) (n : RegNo) (v : Word) : (s.setA n v).supervisor = s.supervisor := by
  simp [State.supervisor]
@[simp] theorem State.progFC_setA (s : State) (n : RegNo) (v : Word) : (s.setA n v).progFC = s.progFC := by
  simp [State.progFC, State.supervisor]
@[simp] theorem State.dataFC_setA (s : State) (n : RegNo) (v : Word) : (s.setA n v).dataFC = s.dataFC := by
  simp [State.dataFC, State.supervisor]
@[simp] theorem State.flags_setA (s : State) (n : RegNo) (v : Word) : (s.setA n v).flags = s.flags := by
  simp [State.flags]

@[simp] theorem State.supervisor_putByte (s : State) (fc : FC) (a : Word) (b : Byte) : (s.putByte fc a b).supervisor = s.supervisor := by
  simp [State.supervisor]
@[simp] theorem State.progFC_putByte (s : State) (fc : FC) (a : Word) (b : Byte) : (s.putByte fc a b).progFC = s.progFC := by
  simp [State.progFC, State.supervisor]
@[simp] theorem State.dataFC_putByte (s : State) (fc : FC) (a : Word) (b : Byte) : (s.putByte fc a b).dataFC = s.dataFC := by
  simp [State.dataFC, State.supervisor]
@[simp] theorem State.flags_putByte (s : State) (fc : FC) (a : Word) (b : Byte) : (s.putByte fc a b).flags = s.flags := by
  simp [State.flags]

@[simp] theorem State.supervisor_putBytes (s : State) (fc : FC) (a v : Word) (n : Nat) : (s.putBytes fc a v n).supervisor = s.supervisor := by
  simp [State.supervisor]
@[simp] theorem State.progFC_putBytes (s : State) (fc : FC) (a v : Word) (n : Nat) : (s.putBytes fc a v n).progFC = s.progFC := by
  simp [State.progFC, State.supervisor]
@[simp] theorem State.dataFC_putBytes (s : State) (fc : FC) (a v : Word) (n : Nat) : (s.putBytes fc a v n).dataFC = s.dataFC := by
  simp [State.dataFC, State.supervisor]
@[simp] theorem State.flags_putBytes (s : State) (fc : FC) (a v : Word) (n : Nat) : (s.putBytes fc a v n).flags = s.flags := by
  simp [State.flags]

@[simp] theorem State.supervisor_skip (s : State) (n : Nat) : (s.skip n).supervisor = s.supervisor := by
  simp [State.supervisor]
@[simp] theorem State.progFC_skip (s : State) (n : Nat) : (s.skip n).progFC = s.progFC := by
  simp [State.progFC, State.supervisor]
@[simp] theorem State.dataFC_skip (s : State) (n : Nat) : (s.skip n).dataFC = s.dataFC := by
  simp [State.dataFC, State.supervisor]
@[simp] theorem State.flags_skip (s : State) (n : Nat) : (s.skip n).flags = s.flags := by
  simp [State.flags]

@[simp] theorem State.supervisor_started (s : State) : (s.started).supervisor = s.supervisor := by
  simp [State.supervisor]
@[simp] theorem State.progFC_started (s : State) : (s.started).progFC = s.progFC := by
  simp [State.progFC, State.supervisor]
@[simp] theorem State.dataFC_started (s : State) : (s.started).dataFC = s.dataFC := by
  simp [State.dataFC, State.supervisor]
@[simp] theorem State.flags_started (s : State) : (s.started).flags = s.flags := by
  simp [State.flags]

@[simp] theorem State.supervisor_counted (s : State) : (s.counted).supervisor = s.supervisor := by
  simp [State.supervisor]
@[simp] theorem State.progFC_counted (s : State) : (s.counted).progFC = s.progFC := by
  simp [State.progFC, State.supervisor]
@[simp] theorem State.dataFC_counted (s : State) : (s.counted).dataFC = s.dataFC := by
  simp [State.dataFC, State.supervisor]
@[simp] theorem State.flags_counted (s : State) : (s.counted).flags = s.flags := by
  simp [State.flags]

@[simp] theorem State.supervisor_halt (s : State) : (s.halt).supervisor = s.supervisor := by
  simp [State.supervisor]
@[simp] theorem State.progFC_halt (s : State) : (s.halt).progFC = s.progFC := by
  simp [State.progFC, State.supervisor]
@[simp] theorem State.dataFC_halt (s : State) : (s.halt).dataFC = s.dataFC := by
  simp [State.dataFC, State.supervisor]
@[simp] theorem State.flags_halt (s : State) : (s.halt).flags = s.flags := by
  simp [State.flags]

@[simp] theorem State.supervisor_sideEffect (s : State) (ea : Ea) (sz : Size) : (s.sideEffect ea sz).supervisor = s.supervisor := by
  simp [State.supervisor]
@[simp] theorem State.progFC_sideEffect (s : State) (ea : Ea) (sz : Size) : (s.sideEffect ea sz).progFC = s.progFC := by
  simp [State.progFC, State.supervisor]
@[simp] theorem State.dataFC_sideEffect (s : State) (ea : Ea) (sz : Size) : (s.sideEffect ea sz).dataFC = s.dataFC := by
  simp [State.dataFC, State.supervisor]
@[simp] theorem State.flags_sideEffect (s : State) (ea : Ea) (sz : Size) : (s.sideEffect ea sz).flags = s.flags := by
  simp [State.flags]

@[simp] theorem State.supervisor_afterEA (s : State) (ea : Ea) (sz : Size) : (s.afterEA ea sz).supervisor = s.supervisor := by
  simp [State.supervisor]
@[simp] theorem State.progFC_afterEA (s : State) (ea : Ea) (sz : Size) : (s.afterEA ea sz).progFC = s.progFC := by
  simp [State.progFC, State.supervisor]
@[simp] theorem State.dataFC_afterEA (s : State) (ea : Ea) (sz : Size) : (s.afterEA ea sz).dataFC = s.dataFC := by
  simp [State.dataFC, State.supervisor]
@[simp] theorem State.flags_afterEA (s : State) (ea : Ea) (sz : Size) : (s.afterEA ea sz).flags = s.flags := by
  simp [State.flags]

@[simp] theorem State.supervisor_stored (s : State) (loc : Loc) (sz : Size) (v : Word) : (s.stored loc sz v).supervisor = s.supervisor := by
  simp [State.supervisor]
@[simp] theorem State.progFC_stored (s : State) (loc : Loc) (sz : Size) (v : Word) : (s.stored loc sz v).progFC = s.progFC := by
  simp [State.progFC, State.supervisor]
@[simp] theorem State.dataFC_stored (s : State) (loc : Loc) (sz : Size) (v : Word) : (s.stored loc sz v).dataFC = s.dataFC := by
  simp [State.dataFC, State.supervisor]
@[simp] theorem State.flags_stored (s : State) (loc : Loc) (sz : Size) (v : Word) : (s.stored loc sz v).flags = s.flags := by
  simp [State.flags]

@[simp] theorem State.supervisor_pushed (s : State) (v : Word) : (s.pushed v).supervisor = s.supervisor := by
  simp [State.supervisor]
@[simp] theorem State.progFC_pushed (s : State) (v : Word) : (s.pushed v).progFC = s.progFC := by
  simp [State.progFC, State.supervisor]
@[simp] theorem State.dataFC_pushed (s : State) (v : Word) : (s.pushed v).dataFC = s.dataFC := by
  simp [State.dataFC, State.supervisor]
@[simp] theorem State.flags_pushed (s : State) (v : Word) : (s.pushed v).flags = s.flags := by
  simp [State.flags]

@[simp] theorem State.skip_pc (s : State) (n : Nat) : (s.skip n).pc = s.pc + BitVec.ofNat 32 (2 * n) := rfl
@[simp] theorem State.started_pc (s : State) : s.started.pc = s.pc + 2 := rfl
@[simp] theorem State.counted_icount (s : State) : s.counted.icount = s.icount + 1 := rfl
@[simp] theorem State.halt_run (s : State) : s.halt.run = .halted := rfl
@[simp] theorem State.setSR_sr (s : State) (v : Half) : (s.setSR v).sr = v &&& s.cfg.model.srMask := rfl

/-! ## Values read back -/

@[simp] theorem State.getD_setD_same (s : State) (n : RegNo) (v : Word) : (s.setD n v).getD n = v := by
  simp [State.getD, State.setD]

theorem State.getD_setD_ne (s : State) {n m : RegNo} (v : Word) (h : n ≠ m) : (s.setD n v).getD m = s.getD m := by
  simp only [State.getD, State.setD, Fin.getElem_fin]
  exact Vector.getElem_set_ne (by omega) (by omega) (fun e => h (Fin.ext e))

@[simp] theorem State.getSP_setSP (s : State) (v : Word) : (s.setSP v).getSP = v := by
  unfold State.getSP State.setSP
  cases h : s.activeStack <;> simp_all [State.activeStack, State.supervisor, State.master]

@[simp] theorem State.activeStack_setSP (s : State) (v : Word) : (s.setSP v).activeStack = s.activeStack := by
  simp [State.activeStack, State.supervisor, State.master]

@[simp] theorem State.getA_setA_same (s : State) (n : RegNo) (v : Word) : (s.setA n v).getA n = v := by
  unfold State.getA State.setA
  by_cases h : n.val < 7 <;> simp [h]

@[simp] theorem State.getD_setA (s : State) (n m : RegNo) (v : Word) : (s.setA n v).getD m = s.getD m := by
  simp [State.getD]

theorem State.getA_congr {s t : State} (ha : t.a = s.a) (hu : t.usp = s.usp) (hi : t.isp = s.isp)
    (hm : t.msp = s.msp) (hs : t.activeStack = s.activeStack) (n : RegNo) : t.getA n = s.getA n := by
  simp only [State.getA, State.getSP, ha, hu, hi, hm, hs]

@[simp] theorem State.getA_setD (s : State) (n m : RegNo) (v : Word) : (s.setD n v).getA m = s.getA m := rfl

theorem State.getA_setA_ne (s : State) {n m : RegNo} (v : Word) (h : n ≠ m) : (s.setA n v).getA m = s.getA m := by
  unfold State.getA State.setA
  by_cases hn : n.val < 7 <;> by_cases hm : m.val < 7 <;> simp only [hn, hm, dite_true, dite_false]
  · exact Vector.getElem_set_ne (by omega) (by omega) (fun e => h (Fin.ext e))
  · rfl
  · simp
  · exact absurd (Fin.ext (by omega)) h

@[simp] theorem State.called_cfg (s : State) (fc : FC) (a : Word) (n : Nat) : (s.called fc a n).cfg = s.cfg := by
  unfold State.called; split <;> rfl
@[simp] theorem State.called_d (s : State) (fc : FC) (a : Word) (n : Nat) : (s.called fc a n).d = s.d := by
  unfold State.called; split <;> rfl
@[simp] theorem State.called_a (s : State) (fc : FC) (a : Word) (n : Nat) : (s.called fc a n).a = s.a := by
  unfold State.called; split <;> rfl
@[simp] theorem State.called_usp (s : State) (fc : FC) (a : Word) (n : Nat) : (s.called fc a n).usp = s.usp := by
  unfold State.called; split <;> rfl
@[simp] theorem State.called_isp (s : State) (fc : FC) (a : Word) (n : Nat) : (s.called fc a n).isp = s.isp := by
  unfold State.called; split <;> rfl
@[simp] theorem State.called_msp (s : State) (fc : FC) (a : Word) (n : Nat) : (s.called fc a n).msp = s.msp := by
  unfold State.called; split <;> rfl
@[simp] theorem State.called_pc (s : State) (fc : FC) (a : Word) (n : Nat) : (s.called fc a n).pc = s.pc := by
  unfold State.called; split <;> rfl
@[simp] theorem State.called_opcode (s : State) (fc : FC) (a : Word) (n : Nat) : (s.called fc a n).opcode = s.opcode := by
  unfold State.called; split <;> rfl
@[simp] theorem State.called_sr (s : State) (fc : FC) (a : Word) (n : Nat) : (s.called fc a n).sr = s.sr := by
  unfold State.called; split <;> rfl
@[simp] theorem State.called_vbr (s : State) (fc : FC) (a : Word) (n : Nat) : (s.called fc a n).vbr = s.vbr := by
  unfold State.called; split <;> rfl
@[simp] theorem State.called_sfc (s : State) (fc : FC) (a : Word) (n : Nat) : (s.called fc a n).sfc = s.sfc := by
  unfold State.called; split <;> rfl
@[simp] theorem State.called_dfc (s : State) (fc : FC) (a : Word) (n : Nat) : (s.called fc a n).dfc = s.dfc := by
  unfold State.called; split <;> rfl
@[simp] theorem State.called_cacr (s : State) (fc : FC) (a : Word) (n : Nat) : (s.called fc a n).cacr = s.cacr := by
  unfold State.called; split <;> rfl
@[simp] theorem State.called_caar (s : State) (fc : FC) (a : Word) (n : Nat) : (s.called fc a n).caar = s.caar := by
  unfold State.called; split <;> rfl
@[simp] theorem State.called_run (s : State) (fc : FC) (a : Word) (n : Nat) : (s.called fc a n).run = s.run := by
  unfold State.called; split <;> rfl
@[simp] theorem State.called_icount (s : State) (fc : FC) (a : Word) (n : Nat) : (s.called fc a n).icount = s.icount := by
  unfold State.called; split <;> rfl
@[simp] theorem State.called_mem (s : State) (fc : FC) (a : Word) (n : Nat) : (s.called fc a n).mem = s.mem := by
  unfold State.called; split <;> rfl

@[simp] theorem State.afterFetch_cfg (s : State) (a : Word) : (s.afterFetch a).cfg = s.cfg := by
  unfold State.afterFetch; split <;> simp
@[simp] theorem State.afterFetch_d (s : State) (a : Word) : (s.afterFetch a).d = s.d := by
  unfold State.afterFetch; split <;> simp
@[simp] theorem State.afterFetch_a (s : State) (a : Word) : (s.afterFetch a).a = s.a := by
  unfold State.afterFetch; split <;> simp
@[simp] theorem State.afterFetch_usp (s : State) (a : Word) : (s.afterFetch a).usp = s.usp := by
  unfold State.afterFetch; split <;> simp
@[simp] theorem State.afterFetch_isp (s : State) (a : Word) : (s.afterFetch a).isp = s.isp := by
  unfold State.afterFetch; split <;> simp
@[simp] theorem State.afterFetch_msp (s : State) (a : Word) : (s.afterFetch a).msp = s.msp := by
  unfold State.afterFetch; split <;> simp
@[simp] theorem State.afterFetch_pc (s : State) (a : Word) : (s.afterFetch a).pc = s.pc := by
  unfold State.afterFetch; split <;> simp
@[simp] theorem State.afterFetch_opcode (s : State) (a : Word) : (s.afterFetch a).opcode = s.opcode := by
  unfold State.afterFetch; split <;> simp
@[simp] theorem State.afterFetch_sr (s : State) (a : Word) : (s.afterFetch a).sr = s.sr := by
  unfold State.afterFetch; split <;> simp
@[simp] theorem State.afterFetch_vbr (s : State) (a : Word) : (s.afterFetch a).vbr = s.vbr := by
  unfold State.afterFetch; split <;> simp
@[simp] theorem State.afterFetch_sfc (s : State) (a : Word) : (s.afterFetch a).sfc = s.sfc := by
  unfold State.afterFetch; split <;> simp
@[simp] theorem State.afterFetch_dfc (s : State) (a : Word) : (s.afterFetch a).dfc = s.dfc := by
  unfold State.afterFetch; split <;> simp
@[simp] theorem State.afterFetch_cacr (s : State) (a : Word) : (s.afterFetch a).cacr = s.cacr := by
  unfold State.afterFetch; split <;> simp
@[simp] theorem State.afterFetch_caar (s : State) (a : Word) : (s.afterFetch a).caar = s.caar := by
  unfold State.afterFetch; split <;> simp
@[simp] theorem State.afterFetch_run (s : State) (a : Word) : (s.afterFetch a).run = s.run := by
  unfold State.afterFetch; split <;> simp
@[simp] theorem State.afterFetch_icount (s : State) (a : Word) : (s.afterFetch a).icount = s.icount := by
  unfold State.afterFetch; split <;> simp
@[simp] theorem State.afterFetch_mem (s : State) (a : Word) : (s.afterFetch a).mem = s.mem := by
  unfold State.afterFetch; split <;> simp

@[simp] theorem State.writeControl_cfg (s : State) (r : ControlReg) (v : Word) : (s.writeControl r v).cfg = s.cfg := by
  cases r <;> rfl
@[simp] theorem State.writeControl_d (s : State) (r : ControlReg) (v : Word) : (s.writeControl r v).d = s.d := by
  cases r <;> rfl
@[simp] theorem State.writeControl_a (s : State) (r : ControlReg) (v : Word) : (s.writeControl r v).a = s.a := by
  cases r <;> rfl
@[simp] theorem State.writeControl_pc (s : State) (r : ControlReg) (v : Word) : (s.writeControl r v).pc = s.pc := by
  cases r <;> rfl
@[simp] theorem State.writeControl_opcode (s : State) (r : ControlReg) (v : Word) : (s.writeControl r v).opcode = s.opcode := by
  cases r <;> rfl
@[simp] theorem State.writeControl_sr (s : State) (r : ControlReg) (v : Word) : (s.writeControl r v).sr = s.sr := by
  cases r <;> rfl
@[simp] theorem State.writeControl_run (s : State) (r : ControlReg) (v : Word) : (s.writeControl r v).run = s.run := by
  cases r <;> rfl
@[simp] theorem State.writeControl_icount (s : State) (r : ControlReg) (v : Word) : (s.writeControl r v).icount = s.icount := by
  cases r <;> rfl
@[simp] theorem State.writeControl_mem (s : State) (r : ControlReg) (v : Word) : (s.writeControl r v).mem = s.mem := by
  cases r <;> rfl
@[simp] theorem State.writeControl_draws (s : State) (r : ControlReg) (v : Word) : (s.writeControl r v).draws = s.draws := by
  cases r <;> rfl

end Sys2Proof.Machine
end

