-- ==== Sys2Proof/Laws/Memory.lean ====
section
/-! SUPPORT. The laws of memory: read after write, the canonical form, big-endian values. -/

namespace Sys2Proof.Machine

/-! ## One byte -/

theorem Memory.read_write_same (m : Memory) (k : Nat) (b : Byte) (h : m.Pairwise fun x y => x.1 < y.1) :
    Memory.read (Memory.write m k b) k = b := by
  induction m with
  | nil => simp only [Memory.write]; split <;> simp_all [Memory.read]
  | cons x m ih =>
    obtain ⟨k', b'⟩ := x
    rw [List.pairwise_cons] at h
    have absent : ∀ (l : Memory), (∀ y ∈ l, k < y.1) → Memory.read l k = 0 := by
      intro l hl
      induction l with
      | nil => rfl
      | cons y l ihl =>
        have := hl y (by simp)
        simp only [Memory.read]
        rw [if_neg (by omega)]
        exact ihl fun z hz => hl z (by simp [hz])
    simp only [Memory.write]
    split
    · rename_i hlt
      split
      · rename_i hb
        rw [hb]
        refine absent _ ?_
        intro y hy
        rcases List.mem_cons.1 hy with rfl | hy
        · exact hlt
        · have := h.1 y hy
          omega
      · simp [Memory.read]
    · split
      · rename_i heq
        split
        · rename_i hb
          rw [hb]
          refine absent _ ?_
          intro y hy
          have := h.1 y hy
          simp only at this
          omega
        · simp [Memory.read]
      · rename_i hlt hne
        simp only [Memory.read]
        rw [if_neg hne]
        exact ih h.2

theorem Memory.read_write_ne (m : Memory) {k j : Nat} (b : Byte) (h : j ≠ k) :
    Memory.read (Memory.write m k b) j = Memory.read m j := by
  induction m with
  | nil => simp only [Memory.write]; split <;> simp_all [Memory.read]
  | cons x m ih =>
    obtain ⟨k', b'⟩ := x
    simp only [Memory.write]
    split
    · split
      · rfl
      · simp [Memory.read, h]
    · split
      · rename_i heq
        split <;> subst heq <;> simp [Memory.read, h]
      · simp only [Memory.read, ih]

/-! ## The canonical form -/

theorem Memory.write_fst_mem (m : Memory) (k : Nat) (b : Byte) :
    ∀ x ∈ Memory.write m k b, x = (k, b) ∧ b ≠ 0 ∨ x ∈ m := by
  induction m with
  | nil =>
    intro x hx
    simp only [Memory.write] at hx
    split at hx
    · cases hx
    · rename_i hb
      exact .inl ⟨List.mem_singleton.1 hx, hb⟩
  | cons y m ih =>
    obtain ⟨k', b'⟩ := y
    intro x hx
    simp only [Memory.write] at hx
    split at hx
    · split at hx
      · exact .inr hx
      · rename_i hb
        rcases List.mem_cons.1 hx with hx | hx
        · exact .inl ⟨hx, hb⟩
        · exact .inr hx
    · split at hx
      · split at hx
        · exact .inr (List.mem_cons_of_mem _ hx)
        · rename_i hb
          rcases List.mem_cons.1 hx with hx | hx
          · exact .inl ⟨hx, hb⟩
          · exact .inr (List.mem_cons_of_mem _ hx)
      · rcases List.mem_cons.1 hx with hx | hx
        · exact .inr (by simp [hx])
        · rcases ih x hx with h | h
          · exact .inl h
          · exact .inr (List.mem_cons_of_mem _ h)

/-- Every write keeps the canonical form. -/
theorem Memory.wf_write (m : Memory) (k : Nat) (b : Byte) (h : Memory.wf m) : Memory.wf (Memory.write m k b) := by
  refine ⟨?_, ?_⟩
  · obtain ⟨hp, -⟩ := h
    induction m with
    | nil => simp only [Memory.write]; split <;> simp
    | cons x m ih =>
      obtain ⟨k', b'⟩ := x
      rw [List.pairwise_cons] at hp
      simp only [Memory.write]
      split
      · rename_i hlt
        split
        · exact List.pairwise_cons.2 hp
        · refine List.pairwise_cons.2 ⟨?_, List.pairwise_cons.2 hp⟩
          intro y hy
          rcases List.mem_cons.1 hy with rfl | hy
          · exact hlt
          · have := hp.1 y hy
            simp only at this ⊢
            omega
      · split
        · rename_i heq
          split
          · exact hp.2
          · subst heq
            exact List.pairwise_cons.2 hp
        · rename_i hlt hne
          refine List.pairwise_cons.2 ⟨?_, ih hp.2⟩
          intro y hy
          rcases Memory.write_fst_mem m k b y hy with ⟨rfl, -⟩ | hy
          · simp only
            omega
          · exact hp.1 y hy
  · intro x hx
    rcases Memory.write_fst_mem m k b x hx with ⟨rfl, hb⟩ | hx
    · exact hb
    · exact h.2 x hx

/-! ## Keys: the bank and the address -/

/-- Two addresses of spaces served by one bank have the same key exactly when they are equal. -/
theorem MemMap.key_inj (mm : MemMap) (fc : FC) {a b : Word} : mm.key fc a = mm.key fc b ↔ a = b := by
  simp only [MemMap.key]
  constructor
  · intro h
    exact BitVec.eq_of_toNat_eq (by omega)
  · rintro rfl
    rfl

@[simp] theorem State.byteAt_putByte_same (s : State) (fc : FC) (a : Word) (b : Byte) (h : Memory.wf s.mem) :
    (s.putByte fc a b).byteAt fc a = b := Memory.read_write_same _ _ _ h.1

theorem State.byteAt_putByte_ne (s : State) (fc fc' : FC) {a a' : Word} (b : Byte)
    (h : s.cfg.mem.key fc' a' ≠ s.cfg.mem.key fc a) : (s.putByte fc a b).byteAt fc' a' = s.byteAt fc' a' :=
  Memory.read_write_ne _ _ h

theorem State.wf_putByte (s : State) (fc : FC) (a : Word) (b : Byte) (h : Memory.wf s.mem) :
    Memory.wf (s.putByte fc a b).mem := Memory.wf_write _ _ _ h

theorem State.wf_putBytes (s : State) (fc : FC) (a v : Word) (n : Nat) (h : Memory.wf s.mem) :
    Memory.wf (s.putBytes fc a v n).mem := by
  induction n generalizing s a with
  | zero => exact h
  | succ n ih => exact ih _ _ (s.wf_putByte fc a _ h)

/-! ## The answers of the host -/

theorem MemMap.accepts_iff {mm : MemMap} {it : Intent} {fc : FC} {a : Word} {n : Nat} :
    mm.accepts it fc a n = true ↔ mm.answer it fc a n = .served := by simp [MemMap.accepts]

/-- A call that the host serves from its bytes, or refuses, touches no window of its own. -/
theorem MemMap.touches_of_answer {mm : MemMap} {it : Intent} {fc : FC} {a : Word} {n : Nat}
    (h : mm.answer it fc a n ≠ .own) : touches mm.own fc a n = false := by
  cases ht : touches mm.own fc a n with
  | false => rfl
  | true => simp [MemMap.answer, ht] at h

theorem State.called_of_answer {s : State} {it : Intent} {fc : FC} {a : Word} {n : Nat}
    (h : s.cfg.mem.answer it fc a n ≠ .own) : s.called fc a n = s := by
  simp [State.called, MemMap.touches_of_answer h]

theorem State.called_of_accepts {s : State} {it : Intent} {fc : FC} {a : Word} {n : Nat}
    (h : s.cfg.mem.accepts it fc a n = true) : s.called fc a n = s :=
  State.called_of_answer (it := it) (by rw [MemMap.accepts_iff.1 h]; decide)

theorem State.memGet_of_accepts {s : State} {fc : FC} {a : Word} {n : Nat}
    (h : s.cfg.mem.accepts .read fc a n = true) : s.memGet fc a n = some (s.bytesAt fc a n) := by
  simp only [State.memGet, MemMap.accepts_iff.1 h]

theorem State.memPut_of_accepts {s : State} {fc : FC} {a v : Word} {n : Nat}
    (h : s.cfg.mem.accepts .write fc a n = true) : s.memPut fc a n v = some (s.putBytes fc a v n) := by
  simp only [State.memPut, MemMap.accepts_iff.1 h]

/-- Everything a write that succeeds can do: store the bytes, or nothing but be counted as a call. -/
theorem State.memPut_cases {s t : State} {fc : FC} {a v : Word} {n : Nat} (h : s.memPut fc a n v = some t) :
    t = s.putBytes fc a v n ∨ t = s.called fc a n := by
  unfold State.memPut at h
  split at h
  · split at h
    · exact .inr (Option.some.inj h).symm
    · cases h
  · cases h
  · rename_i ha
    rw [State.called_of_answer (it := .write) (by rw [ha]; decide)]
    exact .inr (Option.some.inj h).symm
  · exact .inl (Option.some.inj h).symm

theorem State.wf_memPut (s t : State) (fc : FC) (a v : Word) (n : Nat) (h : Memory.wf s.mem)
    (ht : s.memPut fc a n v = some t) : Memory.wf t.mem := by
  rcases State.memPut_cases ht with rfl | rfl
  · exact s.wf_putBytes fc a v n h
  · simpa using h

theorem State.wf_drawBytes (s : State) (fc : FC) (a : Word) (n : Nat) (h : Memory.wf s.mem) :
    Memory.wf (s.drawBytes fc a n).mem := by
  induction n generalizing s a with
  | zero => exact h
  | succ n ih => exact ih _ _ (s.wf_putByte fc a _ h)

/-- A write of `n` bytes leaves every byte outside them alone. -/
theorem State.byteAt_putBytes_ne (s : State) (fc fc' : FC) (a a' v : Word) (n : Nat)
    (h : ∀ k < n, s.cfg.mem.key fc' a' ≠ s.cfg.mem.key fc (a + BitVec.ofNat 32 k)) :
    (s.putBytes fc a v n).byteAt fc' a' = s.byteAt fc' a' := by
  induction n generalizing s a with
  | zero => rfl
  | succ n ih =>
    simp only [State.putBytes]
    rw [ih]
    · refine State.byteAt_putByte_ne s fc fc' _ ?_
      have := h 0 (by omega)
      simpa using this
    · intro k hk
      have := h (k + 1) (by omega)
      rw [BitVec.add_assoc, BitVec.add_comm 1 _]
      simpa [BitVec.ofNat_add] using this

end Sys2Proof.Machine
end

