-- ==== Sys2Proof/Laws/Ops.lean ====
section
/-! SUPPORT. What each shared operation does when it succeeds: the lemmas by which an instruction's rule is
followed step by step. -/

namespace Sys2Proof.Machine

/-! ## Sequencing -/

theorem bind_ok {α β : Type} {m : Op α} {k : α → Op β} {s t : State} {a : α} (h : m s = .ok a t) :
    (m >>= k) s = k a t := by
  show EStateM.bind m k s = _
  simp only [EStateM.bind, h]

theorem bind_error {α β : Type} {m : Op α} {k : α → Op β} {s t : State} {e : Stop} (h : m s = .error e t) :
    (m >>= k) s = .error e t := by
  show EStateM.bind m k s = _
  simp only [EStateM.bind, h]

/-- A sequence that ends well: both parts do. -/
theorem bind_eq_ok {α β : Type} {m : Op α} {k : α → Op β} {s u : State} {b : β} :
    (m >>= k) s = .ok b u ↔ ∃ a t, m s = .ok a t ∧ k a t = .ok b u := by
  constructor
  · intro h
    cases hm : m s with
    | ok a t => exact ⟨a, t, rfl, by rw [bind_ok hm] at h; exact h⟩
    | error e t => rw [bind_error hm] at h; cases h
  · rintro ⟨a, t, hm, hk⟩
    rw [bind_ok hm, hk]

@[simp] theorem pure_run {α : Type} (a : α) (s : State) : (pure a : Op α) s = .ok a s := rfl
@[simp] theorem raise_run {α : Type} (e : Exc) (s : State) : (raise e : Op α) s = .error (.exc e) s := rfl
@[simp] theorem refuse_run {α : Type} (r : Refusal) (s : State) : (refuse r : Op α) s = .error (.refuse r) s := rfl

/-! ## Reads and writes that never fail -/

section
variable {β : Type} (s : State)

@[simp] theorem readD_bind (n : RegNo) (k : Word → Op β) : (readD n >>= k) s = k (s.getD n) s := rfl
@[simp] theorem writeD_bind (n : RegNo) (v : Word) (k : Unit → Op β) :
    (writeD n v >>= k) s = k () (s.setD n v) := rfl
@[simp] theorem readDSized_bind (sz : Size) (n : RegNo) (k : Word → Op β) :
    (readDSized sz n >>= k) s = k (sz.trunc (s.getD n)) s := rfl
@[simp] theorem writeDSized_bind (sz : Size) (n : RegNo) (v : Word) (k : Unit → Op β) :
    (writeDSized sz n v >>= k) s = k () (s.setDSized sz n v) := rfl
@[simp] theorem readA_bind (n : RegNo) (k : Word → Op β) : (readA n >>= k) s = k (s.getA n) s := rfl
@[simp] theorem writeA_bind (n : RegNo) (v : Word) (k : Unit → Op β) :
    (writeA n v >>= k) s = k () (s.setA n v) := rfl
@[simp] theorem readSP_bind (k : Word → Op β) : (readSP >>= k) s = k s.getSP s := rfl
@[simp] theorem writeSP_bind (v : Word) (k : Unit → Op β) : (writeSP v >>= k) s = k () (s.setSP v) := rfl
@[simp] theorem readPC_bind (k : Word → Op β) : (readPC >>= k) s = k s.pc s := rfl
@[simp] theorem writePC_bind (v : Word) (k : Unit → Op β) : (writePC v >>= k) s = k () { s with pc := v } := rfl
@[simp] theorem readFlags_bind (k : Ccr → Op β) : (readFlags >>= k) s = k s.flags s := rfl
@[simp] theorem writeFlags_bind (f : Ccr) (k : Unit → Op β) : (writeFlags f >>= k) s = k () (s.setFlags f) := rfl
@[simp] theorem readSR_bind (k : Half → Op β) : (readSR >>= k) s = k s.sr s := rfl
@[simp] theorem writeSR_bind (v : Half) (k : Unit → Op β) : (writeSR v >>= k) s = k () (s.setSR v) := rfl
@[simp] theorem readCCR_bind (k : Byte → Op β) : (readCCR >>= k) s = k s.getCCR s := rfl
@[simp] theorem writeCCR_bind (v : Byte) (k : Unit → Op β) : (writeCCR v >>= k) s = k () (s.setCCR v) := rfl
@[simp] theorem readModel_bind (k : Model → Op β) : (readModel >>= k) s = k s.cfg.model s := rfl
@[simp] theorem modifyFlags_bind (g : Ccr → Ccr) (k : Unit → Op β) :
    (modifyFlags g >>= k) s = k () (s.setFlags (g s.flags)) := rfl
@[simp] theorem readCond_bind (c : Cond) (k : Bool → Op β) : (readCond c >>= k) s = k (condTest c s.flags) s := rfl
@[simp] theorem pure_bind_run {α : Type} (a : α) (k : α → Op β) : ((pure a : Op α) >>= k) s = k a s := rfl

end

section
variable (s : State)

@[simp] theorem writeD_run (n : RegNo) (v : Word) : writeD n v s = .ok () (s.setD n v) := rfl
@[simp] theorem writeDSized_run (sz : Size) (n : RegNo) (v : Word) :
    writeDSized sz n v s = .ok () (s.setDSized sz n v) := rfl
@[simp] theorem writeA_run (n : RegNo) (v : Word) : writeA n v s = .ok () (s.setA n v) := rfl
@[simp] theorem writeSP_run (v : Word) : writeSP v s = .ok () (s.setSP v) := rfl
@[simp] theorem writePC_run (v : Word) : writePC v s = .ok () { s with pc := v } := rfl
@[simp] theorem writeFlags_run (f : Ccr) : writeFlags f s = .ok () (s.setFlags f) := rfl
@[simp] theorem writeSR_run (v : Half) : writeSR v s = .ok () (s.setSR v) := rfl
@[simp] theorem writeCCR_run (v : Byte) : writeCCR v s = .ok () (s.setCCR v) := rfl
@[simp] theorem modifyFlags_run (g : Ccr → Ccr) : modifyFlags g s = .ok () (s.setFlags (g s.flags)) := rfl

end

/-! ## Fetching -/

@[simp] theorem State.fetchWordAt_skip (s : State) (n : Nat) (a : Word) : (s.skip n).fetchWordAt a = s.fetchWordAt a := rfl

theorem State.fetchable_iff {s : State} {a : Word} :
    s.fetchable a = true ↔ odd a = false ∧ s.cfg.mem.accepts .read s.progFC a 2 = true := by
  simp [State.fetchable]

/-- A fetch from plain memory gives the bytes. -/
theorem State.fetchWordAt_ok {s : State} {a : Word} (h : s.fetchable a = true) :
    s.fetchWordAt a = .ok ((s.bytesAt s.progFC a 2).setWidth 16) := by
  obtain ⟨h1, h2⟩ := State.fetchable_iff.1 h
  simp only [State.fetchWordAt, h1, Bool.false_eq_true, if_false, State.memGet_of_accepts h2]

/-- A fetch from plain memory changes nothing. -/
theorem State.afterFetch_ok {s : State} {a : Word} (h : s.fetchable a = true) : s.afterFetch a = s := by
  obtain ⟨h1, h2⟩ := State.fetchable_iff.1 h
  simp only [State.afterFetch, h1, Bool.false_eq_true, if_false, State.called_of_accepts h2]

theorem fetchExt_ok {s : State} (h : s.fetchable s.pc = true) : fetchExt s = .ok () (s.skip 1) := by
  simp only [fetchExt, State.fetchWordAt_ok h, State.afterFetch_ok h]
  rfl

/-- A fetch that fails ends the rule; the state is as before it but for the count of free values. -/
theorem fetchExt_error {s : State} {e : Exc} (h : s.fetchWordAt s.pc = .error e) :
    fetchExt s = .error (.fetch e) { s.afterFetch s.pc with draws := (s.afterFetch s.pc).draws + 1 } := by
  simp only [fetchExt, h]

theorem State.skip_zero (s : State) : s.skip 0 = s := by simp [State.skip]

theorem State.skip_skip (s : State) (m n : Nat) : (s.skip m).skip n = s.skip (m + n) := by
  simp only [State.skip]
  congr 1
  rw [Nat.mul_add, BitVec.ofNat_add, BitVec.add_assoc]

theorem State.canFetch_iff {s : State} {n : Nat} :
    s.canFetch n = true ↔ ∀ k < n, s.fetchable (s.pc + BitVec.ofNat 32 (2 * k)) = true := by
  simp [State.canFetch]

theorem State.canFetch_of_le {s : State} {m n : Nat} (h : s.canFetch n = true) (hm : m ≤ n) :
    s.canFetch m = true :=
  State.canFetch_iff.2 fun k hk => State.canFetch_iff.1 h k (by omega)

theorem State.canFetch_succ {s : State} {n : Nat} (h : s.canFetch (n + 1) = true) :
    s.fetchable s.pc = true ∧ (s.skip 1).canFetch n = true := by
  rw [State.canFetch_iff] at h
  refine ⟨by simpa using h 0 (by omega), State.canFetch_iff.2 fun k hk => ?_⟩
  have := h (k + 1) (by omega)
  have e : s.pc + BitVec.ofNat 32 (2 * (k + 1)) = (s.skip 1).pc + BitVec.ofNat 32 (2 * k) := by
    simp only [State.skip_pc, BitVec.add_assoc, ← BitVec.ofNat_add]
    congr 2
    omega
  rw [e] at this
  exact this

/-- One word, when it can be fetched. -/
theorem fetchExt_ok_of_canFetch {s : State} (h : s.canFetch 1 = true) : fetchExt s = .ok () (s.skip 1) :=
  fetchExt_ok (State.canFetch_succ h).1

/-- Fetching `n` words, when they can be fetched. -/
theorem takeExt_ok {s : State} {n : Nat} (h : s.canFetch n = true) : takeExt n s = .ok () (s.skip n) := by
  induction n generalizing s with
  | zero => rw [State.skip_zero]; rfl
  | succ n ih =>
    obtain ⟨h1, h2⟩ := State.canFetch_succ h
    simp only [takeExt]
    rw [bind_ok (fetchExt_ok h1), ih h2, State.skip_skip, Nat.add_comm]

/-! ## Effective addresses -/

@[simp] theorem State.locate_skip (s : State) (n : Nat) (ea : Ea) (sz : Size) (b : Word) :
    (s.skip n).locate ea sz b = s.locate ea sz b := rfl

/-- `CalcEA`, when its words can be fetched and its brief word is not refused. -/
theorem calcEA_ok {s : State} {ea : Ea} {sz : Size} (h : s.eaReady ea sz = true) :
    calcEA ea sz s = .ok (s.eaLoc ea sz) (s.afterEA ea sz) := by
  simp only [State.eaReady, Bool.and_eq_true, Bool.not_eq_true'] at h
  obtain ⟨h1, h2⟩ := h
  simp only [calcEA, readPC_bind]
  rw [bind_ok (takeExt_ok h1)]
  have hc : checkBrief ea (s.skip (eaWordCount sz ea)) = .ok () (s.skip (eaWordCount sz ea)) := by
    simp [checkBrief, h2]
  rw [bind_ok hc]
  rfl

/-- An access at an odd address that must be even calls no host. -/
theorem memReadFC_odd {s : State} {fc : FC} {a : Word} {n : Nat} (h : n ≠ 1 ∧ odd a = true) :
    memReadFC fc a n s = .error (.exc .addressError) s := by
  simp only [memReadFC, if_pos h]

theorem memReadFC_refused {s : State} {fc : FC} {a : Word} {n : Nat} (h1 : ¬ (n ≠ 1 ∧ odd a = true))
    (h2 : s.cfg.mem.answer .read fc a n = .refused) : memReadFC fc a n s = .error (.exc .busError) s := by
  simp only [memReadFC, if_neg h1, State.memGet, h2]
  rw [State.called_of_answer (it := .read) (by rw [h2]; decide)]

theorem memWriteFC_odd {s : State} {fc : FC} {a v : Word} {n : Nat} (h : n ≠ 1 ∧ odd a = true) :
    memWriteFC fc a n v s = .error (.exc .addressError) s := by
  simp only [memWriteFC, if_pos h]

theorem memWriteFC_refused {s : State} {fc : FC} {a v : Word} {n : Nat} (h1 : ¬ (n ≠ 1 ∧ odd a = true))
    (h2 : s.cfg.mem.answer .write fc a n = .refused) : memWriteFC fc a n v s = .error (.exc .busError) s := by
  simp only [memWriteFC, if_neg h1, State.memPut, h2]
  rw [State.called_of_answer (it := .write) (by rw [h2]; decide)]

theorem memReadFC_ok {s : State} {fc : FC} {a : Word} {n : Nat} (h1 : ¬ (n ≠ 1 ∧ odd a = true))
    (h2 : s.cfg.mem.accepts .read fc a n = true) : memReadFC fc a n s = .ok (s.bytesAt fc a n) s := by
  simp only [memReadFC, if_neg h1, State.memGet_of_accepts h2, State.called_of_accepts h2]

theorem memWriteFC_ok {s t : State} {fc : FC} {a v : Word} {n : Nat} (h1 : ¬ (n ≠ 1 ∧ odd a = true))
    (h2 : s.memPut fc a n v = some t) : memWriteFC fc a n v s = .ok () t := by
  simp only [memWriteFC]
  rw [if_neg h1, h2]

theorem Size.bytes_ne_one (sz : Size) : sz.bytes ≠ 1 ↔ sz ≠ .b := by cases sz <;> simp [Size.bytes]

/-- `ReadEA`, when the location can be read. -/
theorem readEA_ok {s : State} {loc : Loc} {sz : Size} {v : Word} (h : s.valueAt loc sz = some v) :
    readEA loc sz s = .ok v s := by
  cases loc with
  | dreg n => cases h; rfl
  | areg n => cases h; rfl
  | imm w => cases h; rfl
  | mem fc a =>
    simp only [State.valueAt] at h
    split at h
    · rename_i hn
      cases h
      refine memReadFC_ok ?_ hn.2
      rw [Size.bytes_ne_one]
      rintro ⟨h3, h4⟩
      rcases hn.1 with h1 | h1
      · exact h3 h1
      · rw [h1] at h4; cases h4
    · cases h

/-- `WriteEA`, when the location can be written. -/
theorem writeEA_ok {s : State} {loc : Loc} {sz : Size} {v : Word} (h : s.canStore loc sz = true) :
    writeEA loc sz v s = .ok () (s.stored loc sz v) := by
  cases loc with
  | dreg n => rfl
  | areg n => rfl
  | imm w => rfl
  | mem fc a =>
    simp only [State.canStore, Bool.and_eq_true, Bool.or_eq_true, decide_eq_true_eq, Bool.not_eq_true'] at h
    obtain ⟨h1, h2⟩ := h
    refine memWriteFC_ok ?_ (State.memPut_of_accepts h2)
    rw [Size.bytes_ne_one]
    rintro ⟨h3, h4⟩
    rcases h1 with h1 | h1
    · exact h3 h1
    · rw [h1] at h4; cases h4

/-- A push, when it can be made. -/
theorem pushLong_ok {s : State} {v : Word} (h : s.canPush = true) : pushLong v s = .ok () (s.pushed v) := by
  simp only [pushLong, readSP_bind, writeSP_bind]
  have h' : (s.setSP (s.getSP - 4)).canStore (.mem s.dataFC (s.getSP - 4)) .l = true := by
    simpa [State.canPush, State.canStore] using h
  have hw : memWrite (s.getSP - 4) 4 v (s.setSP (s.getSP - 4)) =
      writeEA (.mem s.dataFC (s.getSP - 4)) .l v (s.setSP (s.getSP - 4)) := by
    simp only [memWrite, writeEA, State.dataFC_setSP]
    rfl
  rw [hw, writeEA_ok h']
  rfl

/-- An effective address computed and read. -/
theorem fetchEA_ok {s : State} {ea : Ea} {sz : Size} {v : Word} (h1 : s.eaReady ea sz = true)
    (h2 : s.operand ea sz = some v) : fetchEA ea sz s = .ok v (s.afterEA ea sz) := by
  simp only [fetchEA]
  rw [bind_ok (calcEA_ok h1), readEA_ok h2]

/-- An immediate of the instruction's own. -/
theorem fetchImm_ok {s : State} {sz : Size} {imm : Word} (h : s.canFetch (if sz = .l then 2 else 1) = true) :
    fetchEA (.imm imm) sz s = .ok imm (s.skip (if sz = .l then 2 else 1)) := by
  have h1 : s.eaReady (.imm imm) sz = true := by simp [State.eaReady, eaWordCount, refusedBrief, h]
  rw [fetchEA_ok h1 (v := imm) rfl]
  rfl

/-- The start of a read-modify-write. -/
theorem openEA_ok {s : State} {ea : Ea} {sz : Size} {v : Word} (h1 : s.eaReady ea sz = true)
    (h2 : s.operand ea sz = some v) : openEA ea sz s = .ok (s.eaLoc ea sz, v) (s.afterEA ea sz) := by
  simp only [openEA]
  rw [bind_ok (calcEA_ok h1), bind_ok (readEA_ok h2), pure_run]

theorem eaReady_predec (s : State) (n : RegNo) (sz : Size) : s.eaReady (.predec n) sz = true := by
  simp [State.eaReady, State.canFetch, eaWordCount, refusedBrief]

theorem eaReady_postinc (s : State) (n : RegNo) (sz : Size) : s.eaReady (.postinc n) sz = true := by
  simp [State.eaReady, State.canFetch, eaWordCount, refusedBrief]

/-- The operands of the `-(Ay),-(Ax)` forms. -/
theorem predecPair_ok {s : State} {sz : Size} {ay ax : RegNo} {v d : Word}
    (h1 : s.operand (.predec ay) sz = some v)
    (h2 : (s.afterEA (.predec ay) sz).operand (.predec ax) sz = some d) :
    predecPair sz ay ax s = .ok (v, (s.afterEA (.predec ay) sz).eaLoc (.predec ax) sz, d)
      ((s.afterEA (.predec ay) sz).afterEA (.predec ax) sz) := by
  simp only [predecPair]
  rw [bind_ok (fetchEA_ok (eaReady_predec _ _ _) h1), bind_ok (openEA_ok (eaReady_predec _ _ _) h2), pure_run]

/-! ## The gates -/

theorem privileged_ok {s : State} (h : s.supervisor = true) : privileged s = .ok () s := by
  simp [privileged, h]

theorem from68010_ok {s : State} (h : s.cfg.model.atLeast10 = true) : from68010 s = .ok () s := by
  simp [from68010, h]

/-! ## The cycle -/

/-- A rule that ends well. -/
theorem cycle_ok {ts : List Target} {rule : Op Unit} {s t : State} (h : rule s.started = .ok () t) :
    cycle ts rule s = .next (finish true s.pc t) := by
  simp only [cycle, cycleWith, h]

/-- A rule that raises. -/
theorem cycle_exc {ts : List Target} {rule : Op Unit} {s t : State} {e : Exc}
    (h : rule s.started = .error (.exc e) t) :
    cycle ts rule s = .next (deliver e .execute s.pc (excState e ts s t).counted) := by
  simp only [cycle, cycleWith, h]

/-- A rule whose fetch of an extension word fails. -/
theorem cycle_fetch {ts : List Target} {rule : Op Unit} {s t : State} {e : Exc}
    (h : rule s.started = .error (.fetch e) t) :
    cycle ts rule s = .next (deliver e .execute s.pc (fetchState ts s t).counted) := by
  simp only [cycle, cycleWith, h]

/-- A rule that refuses. -/
theorem cycle_refused {ts : List Target} {rule : Op Unit} {s t : State} {r : Refusal}
    (h : rule s.started = .error (.refuse r) t) : cycle ts rule s = .refused r := by
  simp only [cycle, cycleWith, h]

/-- Everything a cycle can do. -/
theorem cycleWith_cases (b : Bool) (ts : List Target) (rule : Op Unit) (s : State) :
    (∃ t, rule s.started = .ok () t ∧ cycleWith b ts rule s = .next (finish b s.pc t)) ∨
    (∃ e t, rule s.started = .error (.exc e) t ∧
      cycleWith b ts rule s = .next (deliver e .execute s.pc (excState e ts s t).counted)) ∨
    (∃ e t, rule s.started = .error (.fetch e) t ∧
      cycleWith b ts rule s = .next (deliver e .execute s.pc (fetchState ts s t).counted)) ∨
    (∃ r t, rule s.started = .error (.refuse r) t ∧ cycleWith b ts rule s = .refused r) := by
  simp only [cycleWith]
  cases h : rule s.started with
  | ok a t => exact .inl ⟨t, rfl, rfl⟩
  | error e t =>
    cases e with
    | exc e => exact .inr (.inl ⟨e, t, rfl, rfl⟩)
    | fetch e => exact .inr (.inr (.inl ⟨e, t, rfl, rfl⟩))
    | refuse r => exact .inr (.inr (.inr ⟨r, t, rfl, rfl⟩))

/-- The end of a step whose prefetch succeeds: the next word is loaded and the count is one more. -/
theorem finish_ok {s : State} {a : Word} {w : Half} (hr : s.run = .running) (h : s.fetchWordAt s.pc = .ok w) :
    finish true a s = { s.counted.afterFetch s.pc with opcode := w } := by
  have hc : s.counted.fetchWordAt s.counted.pc = .ok w := h
  simp only [finish, hr, and_self, if_true, endPrefetch, hc]
  rfl

/-- The end of a step whose prefetch fails: the failure is delivered with origin `prefetch`. -/
theorem finish_error {s : State} {a : Word} {e : Exc} (hr : s.run = .running) (h : s.fetchWordAt s.pc = .error e) :
    finish true a s = deliver e .prefetch a (s.counted.afterFetch s.pc) := by
  have hc : s.counted.fetchWordAt s.counted.pc = .error e := h
  simp only [finish, hr, and_self, if_true, endPrefetch, hc]
  rfl

/-! ## The words the decoder is shown -/

/-- A word that can be fetched is shown as it stands in memory, and the words after it from the state after its fetch. -/
theorem State.peek_succ {s : State} {n : Nat} (h : s.fetchable s.pc = true) :
    s.peek (n + 1) = (s.bytesAt s.progFC s.pc 2).setWidth 16 :: (s.skip 1).peek n := by
  simp only [State.peek, State.fetchWordAt_ok h, fetchExt_ok h]

/-- The words shown after `m` words that can be fetched are those shown from the state after them. -/
theorem State.peek_add {s : State} {m n : Nat} (h : s.canFetch m = true) :
    s.peek (m + n) = s.peek m ++ (s.skip m).peek n := by
  induction m generalizing s with
  | zero => rw [State.skip_zero, Nat.zero_add]; rfl
  | succ m ih =>
    obtain ⟨h1, h2⟩ := State.canFetch_succ h
    rw [Nat.add_right_comm, State.peek_succ h1, State.peek_succ h1, ih h2, State.skip_skip, Nat.add_comm 1 m]
    rfl

/-- Reading a location changes nothing that a fetch looks at but the count of free values. -/
theorem readEA_code {s t : State} {loc : Loc} {sz : Size}
    (h : (∃ v, readEA loc sz s = .ok v t) ∨ ∃ e, readEA loc sz s = .error e t) :
    ∃ k, t = { s with draws := k } := by
  cases loc with
  | dreg n => obtain ⟨v, h⟩ | ⟨e, h⟩ := h <;> cases h; exact ⟨_, rfl⟩
  | areg n => obtain ⟨v, h⟩ | ⟨e, h⟩ := h <;> cases h; exact ⟨_, rfl⟩
  | imm v => obtain ⟨v, h⟩ | ⟨e, h⟩ := h <;> cases h; exact ⟨_, rfl⟩
  | mem fc a =>
    have hc : ∃ k, s.called fc a sz.bytes = { s with draws := k } := by
      unfold State.called; split <;> exact ⟨_, rfl⟩
    simp only [readEA, memReadFC] at h
    obtain ⟨v, h⟩ | ⟨e, h⟩ := h
    all_goals split at h
    · cases h
    · split at h <;> cases h; exact hc
    · cases h; exact ⟨_, rfl⟩
    · split at h <;> cases h; exact hc

/-- The state in which MOVE fetches its destination's words: the source's words are behind it, and memory, the
parameters and the status register are as before. -/
theorem State.afterSource_code {s : State} {sz : Size} {src : Ea} (h : s.canFetch (eaWordCount sz src) = true) :
    (s.afterSource sz src).mem = s.mem ∧ (s.afterSource sz src).cfg = s.cfg ∧ (s.afterSource sz src).sr = s.sr ∧
    (s.afterSource sz src).pc = s.pc + BitVec.ofNat 32 (2 * eaWordCount sz src) := by
  by_cases hb : s.cfg.model.is20 && refusedBrief src
  · have hc : calcEA src sz s = .error (.refuse .extensionWord68020) (s.skip (eaWordCount sz src)) := by
      simp only [calcEA, readPC_bind]
      rw [bind_ok (takeExt_ok h)]
      exact bind_error (by simp [checkBrief, State.skip, hb])
    have hf : fetchEA src sz s = .error (.refuse .extensionWord68020) (s.skip (eaWordCount sz src)) := bind_error hc
    simp only [State.afterSource, hf]
    exact ⟨rfl, rfl, rfl, trivial⟩
  · have hf : fetchEA src sz s = readEA (s.eaLoc src sz) sz (s.afterEA src sz) :=
      bind_ok (calcEA_ok (by simp [State.eaReady, h, hb]))
    have ha : (s.afterEA src sz).mem = s.mem ∧ (s.afterEA src sz).cfg = s.cfg ∧ (s.afterEA src sz).sr = s.sr ∧
        (s.afterEA src sz).pc = s.pc + BitVec.ofNat 32 (2 * eaWordCount sz src) := by
      simp [State.afterEA, State.skip]
    cases hr : readEA (s.eaLoc src sz) sz (s.afterEA src sz) with
    | ok v t =>
      obtain ⟨k, rfl⟩ := readEA_code (.inl ⟨v, hr⟩)
      simp only [State.afterSource, hf, hr]
      exact ha
    | error e t =>
      obtain ⟨k, rfl⟩ := readEA_code (.inr ⟨e, hr⟩)
      simp only [State.afterSource, hf, hr]
      exact ⟨ha.1, ha.2.1, ha.2.2.1, trivial⟩

end Sys2Proof.Machine
end

