-- ==== Sys2Proof/Laws/PerInstr.lean ====
section
/-! SUPPORT. A law of every instruction, one lemma per constructor: the encoding has one to five words (R100). -/

namespace Sys2Proof.Laws.EncodeLength

/-- "Its length is 2, 4, 6, 8 or 10 bytes" (R100): the encoding is an opcode word and at most four words more. -/
def Statement (i : Instr) : Prop := 1 ≤ (encode i).length ∧ (encode i).length ≤ 5

theorem one : 1 ≤ 1 ∧ 1 ≤ 5 := by decide

theorem two : 1 ≤ 2 ∧ 2 ≤ 5 := by decide

theorem immWords_length (sz : Size) (v : Word) : (immWords sz v).length ≤ 2 := by
  cases sz <;> simp [immWords]

theorem words_length (sz : Size) (ea : Ea) : (ea.words sz).length ≤ 2 := by
  cases ea <;> simp [Ea.words, immWords_length]

theorem encEa_length (base : Nat) (own : List Half) (sz : Size) (ea : Ea) (h : own.length ≤ 2) :
    1 ≤ (encEa base own sz ea).length ∧ (encEa base own sz ea).length ≤ 5 := by
  have := words_length sz ea
  simp only [encEa, List.length_cons, List.length_append]
  omega

theorem encMove_length (base : Nat) (sz : Size) (src dst : Ea) :
    1 ≤ (encMove base sz src dst).length ∧ (encMove base sz src dst).length ≤ 5 := by
  have := words_length sz src
  have := words_length sz dst
  simp only [encMove, List.length_cons, List.length_append]
  omega

theorem encBranch_length (base : Nat) (d : BranchDisp) :
    1 ≤ (encBranch base d).length ∧ (encBranch base d).length ≤ 5 := by
  cases d <;> simp [encBranch]

theorem oriCcr : ∀ imm, Statement (.oriCcr imm) := 
  fun _ => two
theorem oriSr : ∀ imm, Statement (.oriSr imm) := 
  fun _ => two
theorem ori : ∀ sz imm ea, Statement (.ori sz imm ea) := 
  fun _ _ _ => encEa_length _ _ _ _ (immWords_length _ _)
theorem andiCcr : ∀ imm, Statement (.andiCcr imm) := 
  fun _ => two
theorem andiSr : ∀ imm, Statement (.andiSr imm) := 
  fun _ => two
theorem andi : ∀ sz imm ea, Statement (.andi sz imm ea) := 
  fun _ _ _ => encEa_length _ _ _ _ (immWords_length _ _)
theorem subi : ∀ sz imm ea, Statement (.subi sz imm ea) := 
  fun _ _ _ => encEa_length _ _ _ _ (immWords_length _ _)
theorem addi : ∀ sz imm ea, Statement (.addi sz imm ea) := 
  fun _ _ _ => encEa_length _ _ _ _ (immWords_length _ _)
theorem btstI : ∀ bit ea, Statement (.btstI bit ea) := 
  fun _ _ => encEa_length _ _ _ _ (Nat.le_succ 1)
theorem bchgI : ∀ bit ea, Statement (.bchgI bit ea) := 
  fun _ _ => encEa_length _ _ _ _ (Nat.le_succ 1)
theorem bclrI : ∀ bit ea, Statement (.bclrI bit ea) := 
  fun _ _ => encEa_length _ _ _ _ (Nat.le_succ 1)
theorem bsetI : ∀ bit ea, Statement (.bsetI bit ea) := 
  fun _ _ => encEa_length _ _ _ _ (Nat.le_succ 1)
theorem eoriCcr : ∀ imm, Statement (.eoriCcr imm) := 
  fun _ => two
theorem eoriSr : ∀ imm, Statement (.eoriSr imm) := 
  fun _ => two
theorem eori : ∀ sz imm ea, Statement (.eori sz imm ea) := 
  fun _ _ _ => encEa_length _ _ _ _ (immWords_length _ _)
theorem cmpi : ∀ sz imm ea, Statement (.cmpi sz imm ea) := 
  fun _ _ _ => encEa_length _ _ _ _ (immWords_length _ _)
theorem moves : ∀ sz toMem r ea, Statement (.moves sz toMem r ea) := 
  fun _ _ _ _ => encEa_length _ _ _ _ (Nat.le_succ 1)
theorem btstD : ∀ dn ea, Statement (.btstD dn ea) := 
  fun _ _ => encEa_length _ _ _ _ (Nat.zero_le 2)
theorem bchgD : ∀ dn ea, Statement (.bchgD dn ea) := 
  fun _ _ => encEa_length _ _ _ _ (Nat.zero_le 2)
theorem bclrD : ∀ dn ea, Statement (.bclrD dn ea) := 
  fun _ _ => encEa_length _ _ _ _ (Nat.zero_le 2)
theorem bsetD : ∀ dn ea, Statement (.bsetD dn ea) := 
  fun _ _ => encEa_length _ _ _ _ (Nat.zero_le 2)
theorem movepLoadW : ∀ dx ay d, Statement (.movepLoadW dx ay d) := 
  fun _ _ _ => two
theorem movepLoadL : ∀ dx ay d, Statement (.movepLoadL dx ay d) := 
  fun _ _ _ => two
theorem movepStoreW : ∀ dx ay d, Statement (.movepStoreW dx ay d) := 
  fun _ _ _ => two
theorem movepStoreL : ∀ dx ay d, Statement (.movepStoreL dx ay d) := 
  fun _ _ _ => two
theorem moveB : ∀ src dst, Statement (.moveB src dst) := 
  fun _ _ => encMove_length _ _ _ _
theorem moveL : ∀ src dst, Statement (.moveL src dst) := 
  fun _ _ => encMove_length _ _ _ _
theorem moveW : ∀ src dst, Statement (.moveW src dst) := 
  fun _ _ => encMove_length _ _ _ _
theorem moveaL : ∀ an src, Statement (.moveaL an src) := 
  fun _ _ => encEa_length _ _ _ _ (Nat.zero_le 2)
theorem moveaW : ∀ an src, Statement (.moveaW an src) := 
  fun _ _ => encEa_length _ _ _ _ (Nat.zero_le 2)
theorem negx : ∀ sz ea, Statement (.negx sz ea) := 
  fun _ _ => encEa_length _ _ _ _ (Nat.zero_le 2)
theorem moveFromSr : ∀ ea, Statement (.moveFromSr ea) := 
  fun _ => encEa_length _ _ _ _ (Nat.zero_le 2)
theorem chk : ∀ dn ea, Statement (.chk dn ea) := 
  fun _ _ => encEa_length _ _ _ _ (Nat.zero_le 2)
theorem lea : ∀ an ea, Statement (.lea an ea) := 
  fun _ _ => encEa_length _ _ _ _ (Nat.zero_le 2)
theorem clr : ∀ sz ea, Statement (.clr sz ea) := 
  fun _ _ => encEa_length _ _ _ _ (Nat.zero_le 2)
theorem moveFromCcr : ∀ ea, Statement (.moveFromCcr ea) := 
  fun _ => encEa_length _ _ _ _ (Nat.zero_le 2)
theorem neg : ∀ sz ea, Statement (.neg sz ea) := 
  fun _ _ => encEa_length _ _ _ _ (Nat.zero_le 2)
theorem moveToCcr : ∀ ea, Statement (.moveToCcr ea) := 
  fun _ => encEa_length _ _ _ _ (Nat.zero_le 2)
theorem notEa : ∀ sz ea, Statement (.notEa sz ea) := 
  fun _ _ => encEa_length _ _ _ _ (Nat.zero_le 2)
theorem moveToSr : ∀ ea, Statement (.moveToSr ea) := 
  fun _ => encEa_length _ _ _ _ (Nat.zero_le 2)
theorem nbcd : ∀ ea, Statement (.nbcd ea) := 
  fun _ => encEa_length _ _ _ _ (Nat.zero_le 2)
theorem swap : ∀ dn, Statement (.swap dn) := 
  fun _ => one
theorem bkpt : ∀ v, Statement (.bkpt v) := 
  fun _ => one
theorem pea : ∀ ea, Statement (.pea ea) := 
  fun _ => encEa_length _ _ _ _ (Nat.zero_le 2)
theorem extW : ∀ dn, Statement (.extW dn) := 
  fun _ => one
theorem extL : ∀ dn, Statement (.extL dn) := 
  fun _ => one
theorem movemToMem : ∀ sz mask ea, Statement (.movemToMem sz mask ea) := 
  fun _ _ _ => encEa_length _ _ _ _ (Nat.le_succ 1)
theorem movemToPredec : ∀ sz mask an, Statement (.movemToPredec sz mask an) := 
  fun _ _ _ => two
theorem tst : ∀ sz ea, Statement (.tst sz ea) := 
  fun _ _ => encEa_length _ _ _ _ (Nat.zero_le 2)
theorem tas : ∀ ea, Statement (.tas ea) := 
  fun _ => encEa_length _ _ _ _ (Nat.zero_le 2)
theorem illegal : Statement (.illegal) := one
theorem movemFromMem : ∀ sz mask ea, Statement (.movemFromMem sz mask ea) := 
  fun _ _ _ => encEa_length _ _ _ _ (Nat.le_succ 1)
theorem movemFromPostinc : ∀ sz mask an, Statement (.movemFromPostinc sz mask an) := 
  fun _ _ _ => two
theorem trap : ∀ v, Statement (.trap v) := 
  fun _ => one
theorem link : ∀ an d, Statement (.link an d) := 
  fun _ _ => two
theorem unlk : ∀ an, Statement (.unlk an) := 
  fun _ => one
theorem moveToUsp : ∀ an, Statement (.moveToUsp an) := 
  fun _ => one
theorem moveFromUsp : ∀ an, Statement (.moveFromUsp an) := 
  fun _ => one
theorem reset : Statement (.reset) := one
theorem nop : Statement (.nop) := one
theorem stop : ∀ imm, Statement (.stop imm) := 
  fun _ => two
theorem rte : Statement (.rte) := one
theorem rtd : ∀ d, Statement (.rtd d) := 
  fun _ => two
theorem rts : Statement (.rts) := one
theorem trapv : Statement (.trapv) := one
theorem rtr : Statement (.rtr) := one
theorem movecFrom : ∀ r code, Statement (.movecFrom r code) := 
  fun _ _ => two
theorem movecTo : ∀ r code, Statement (.movecTo r code) := 
  fun _ _ => two
theorem jsr : ∀ ea, Statement (.jsr ea) := 
  fun _ => encEa_length _ _ _ _ (Nat.zero_le 2)
theorem jmp : ∀ ea, Statement (.jmp ea) := 
  fun _ => encEa_length _ _ _ _ (Nat.zero_le 2)
theorem addq : ∀ sz q ea, Statement (.addq sz q ea) := 
  fun _ _ _ => encEa_length _ _ _ _ (Nat.zero_le 2)
theorem subq : ∀ sz q ea, Statement (.subq sz q ea) := 
  fun _ _ _ => encEa_length _ _ _ _ (Nat.zero_le 2)
theorem dbcc : ∀ c dn d, Statement (.dbcc c dn d) := 
  fun _ _ _ => two
theorem scc : ∀ c ea, Statement (.scc c ea) := 
  fun _ _ => encEa_length _ _ _ _ (Nat.zero_le 2)
theorem bra : ∀ d, Statement (.bra d) := 
  fun _ => encBranch_length _ _
theorem bsr : ∀ d, Statement (.bsr d) := 
  fun _ => encBranch_length _ _
theorem bcc : ∀ c d, Statement (.bcc c d) := 
  fun _ _ => encBranch_length _ _
theorem moveq : ∀ dn imm, Statement (.moveq dn imm) := 
  fun _ _ => one
theorem orToReg : ∀ sz dn ea, Statement (.orToReg sz dn ea) := 
  fun _ _ _ => encEa_length _ _ _ _ (Nat.zero_le 2)
theorem orToMem : ∀ sz dn ea, Statement (.orToMem sz dn ea) := 
  fun _ _ _ => encEa_length _ _ _ _ (Nat.zero_le 2)
theorem divu : ∀ dn ea, Statement (.divu dn ea) := 
  fun _ _ => encEa_length _ _ _ _ (Nat.zero_le 2)
theorem divs : ∀ dn ea, Statement (.divs dn ea) := 
  fun _ _ => encEa_length _ _ _ _ (Nat.zero_le 2)
theorem sbcdReg : ∀ dx dy, Statement (.sbcdReg dx dy) := 
  fun _ _ => one
theorem sbcdMem : ∀ ax ay, Statement (.sbcdMem ax ay) := 
  fun _ _ => one
theorem subToReg : ∀ sz dn ea, Statement (.subToReg sz dn ea) := 
  fun _ _ _ => encEa_length _ _ _ _ (Nat.zero_le 2)
theorem subToMem : ∀ sz dn ea, Statement (.subToMem sz dn ea) := 
  fun _ _ _ => encEa_length _ _ _ _ (Nat.zero_le 2)
theorem suba : ∀ sz an ea, Statement (.suba sz an ea) := 
  fun _ _ _ => encEa_length _ _ _ _ (Nat.zero_le 2)
theorem subxReg : ∀ sz dx dy, Statement (.subxReg sz dx dy) := 
  fun _ _ _ => one
theorem subxMem : ∀ sz ax ay, Statement (.subxMem sz ax ay) := 
  fun _ _ _ => one
theorem lineA : ∀ low, Statement (.lineA low) := 
  fun _ => one
theorem cmp : ∀ sz dn ea, Statement (.cmp sz dn ea) := 
  fun _ _ _ => encEa_length _ _ _ _ (Nat.zero_le 2)
theorem cmpa : ∀ sz an ea, Statement (.cmpa sz an ea) := 
  fun _ _ _ => encEa_length _ _ _ _ (Nat.zero_le 2)
theorem eor : ∀ sz dn ea, Statement (.eor sz dn ea) := 
  fun _ _ _ => encEa_length _ _ _ _ (Nat.zero_le 2)
theorem cmpm : ∀ sz ax ay, Statement (.cmpm sz ax ay) := 
  fun _ _ _ => one
theorem andToReg : ∀ sz dn ea, Statement (.andToReg sz dn ea) := 
  fun _ _ _ => encEa_length _ _ _ _ (Nat.zero_le 2)
theorem andToMem : ∀ sz dn ea, Statement (.andToMem sz dn ea) := 
  fun _ _ _ => encEa_length _ _ _ _ (Nat.zero_le 2)
theorem mulu : ∀ dn ea, Statement (.mulu dn ea) := 
  fun _ _ => encEa_length _ _ _ _ (Nat.zero_le 2)
theorem muls : ∀ dn ea, Statement (.muls dn ea) := 
  fun _ _ => encEa_length _ _ _ _ (Nat.zero_le 2)
theorem abcdReg : ∀ dx dy, Statement (.abcdReg dx dy) := 
  fun _ _ => one
theorem abcdMem : ∀ ax ay, Statement (.abcdMem ax ay) := 
  fun _ _ => one
theorem exgDD : ∀ dx dy, Statement (.exgDD dx dy) := 
  fun _ _ => one
theorem exgAA : ∀ ax ay, Statement (.exgAA ax ay) := 
  fun _ _ => one
theorem exgDA : ∀ dx ay, Statement (.exgDA dx ay) := 
  fun _ _ => one
theorem addToReg : ∀ sz dn ea, Statement (.addToReg sz dn ea) := 
  fun _ _ _ => encEa_length _ _ _ _ (Nat.zero_le 2)
theorem addToMem : ∀ sz dn ea, Statement (.addToMem sz dn ea) := 
  fun _ _ _ => encEa_length _ _ _ _ (Nat.zero_le 2)
theorem adda : ∀ sz an ea, Statement (.adda sz an ea) := 
  fun _ _ _ => encEa_length _ _ _ _ (Nat.zero_le 2)
theorem addxReg : ∀ sz dx dy, Statement (.addxReg sz dx dy) := 
  fun _ _ _ => one
theorem addxMem : ∀ sz ax ay, Statement (.addxMem sz ax ay) := 
  fun _ _ _ => one
theorem asrReg : ∀ sz c dn, Statement (.asrReg sz c dn) := 
  fun _ _ _ => one
theorem aslReg : ∀ sz c dn, Statement (.aslReg sz c dn) := 
  fun _ _ _ => one
theorem asrMem : ∀ ea, Statement (.asrMem ea) := 
  fun _ => encEa_length _ _ _ _ (Nat.zero_le 2)
theorem aslMem : ∀ ea, Statement (.aslMem ea) := 
  fun _ => encEa_length _ _ _ _ (Nat.zero_le 2)
theorem lsrReg : ∀ sz c dn, Statement (.lsrReg sz c dn) := 
  fun _ _ _ => one
theorem lslReg : ∀ sz c dn, Statement (.lslReg sz c dn) := 
  fun _ _ _ => one
theorem lsrMem : ∀ ea, Statement (.lsrMem ea) := 
  fun _ => encEa_length _ _ _ _ (Nat.zero_le 2)
theorem lslMem : ∀ ea, Statement (.lslMem ea) := 
  fun _ => encEa_length _ _ _ _ (Nat.zero_le 2)
theorem roxrReg : ∀ sz c dn, Statement (.roxrReg sz c dn) := 
  fun _ _ _ => one
theorem roxlReg : ∀ sz c dn, Statement (.roxlReg sz c dn) := 
  fun _ _ _ => one
theorem roxrMem : ∀ ea, Statement (.roxrMem ea) := 
  fun _ => encEa_length _ _ _ _ (Nat.zero_le 2)
theorem roxlMem : ∀ ea, Statement (.roxlMem ea) := 
  fun _ => encEa_length _ _ _ _ (Nat.zero_le 2)
theorem rorReg : ∀ sz c dn, Statement (.rorReg sz c dn) := 
  fun _ _ _ => one
theorem rolReg : ∀ sz c dn, Statement (.rolReg sz c dn) := 
  fun _ _ _ => one
theorem rorMem : ∀ ea, Statement (.rorMem ea) := 
  fun _ => encEa_length _ _ _ _ (Nat.zero_le 2)
theorem rolMem : ∀ ea, Statement (.rolMem ea) := 
  fun _ => encEa_length _ _ _ _ (Nat.zero_le 2)
theorem lineF : ∀ low, Statement (.lineF low) := 
  fun _ => one
theorem chk2Cmp2 : ∀ ss ea, Statement (.chk2Cmp2 ss ea) := 
  fun _ _ => one
theorem cas : ∀ ss ea, Statement (.cas ss ea) := 
  fun _ _ => one
theorem rtm : ∀ isA rn, Statement (.rtm isA rn) := 
  fun _ _ => one
theorem callm : ∀ ea, Statement (.callm ea) := 
  fun _ => one
theorem chkL : ∀ dn ea, Statement (.chkL dn ea) := 
  fun _ _ => one
theorem linkL : ∀ an, Statement (.linkL an) := 
  fun _ => one
theorem extbL : ∀ dn, Statement (.extbL dn) := 
  fun _ => one
theorem mulL : ∀ ea, Statement (.mulL ea) := 
  fun _ => one
theorem divL : ∀ ea, Statement (.divL ea) := 
  fun _ => one
theorem trapcc : ∀ c op, Statement (.trapcc c op) := 
  fun _ _ => one
theorem pack : ∀ y mem x, Statement (.pack y mem x) := 
  fun _ _ _ => one
theorem unpk : ∀ y mem x, Statement (.unpk y mem x) := 
  fun _ _ _ => one
theorem bitField : ∀ op ea, Statement (.bitField op ea) := 
  fun _ _ => one
theorem tst20 : ∀ sz ea, Statement (.tst20 sz ea) := 
  fun _ _ => one
theorem cmpi20 : ∀ sz ea, Statement (.cmpi20 sz ea) := 
  fun _ _ => one
theorem bccL : ∀ c, Statement (.bccL c) := 
  fun _ => one

end Sys2Proof.Laws.EncodeLength
end

