-- ==== Sys2Proof/Laws/Reset.lean ====
section
/-! SUPPORT. The reset state: it satisfies the invariant, and it is what the reset procedure makes of empty
memory. -/

namespace Sys2Proof.Machine

/-- The canonical form holds of the empty memory. -/
theorem Memory.wf_nil : Memory.wf [] := by decide

/-- The reset state satisfies the invariant. -/
theorem State.reset_inv : State.reset.Inv := ⟨by decide, by decide⟩

/-- The reset procedure on a core with empty memory and the default parameters gives the reset state. -/
theorem reset_procedure_of_reset : resetProcedure { State.reset with run := .startup } = State.reset := by decide

end Sys2Proof.Machine
end

