-- ==== Sys2Proof/Tests/Slice0.lean ====
section
/-! SUPPORT. Tests: ill-formed terms that the checks refuse, decoding, one step on small states, and a witness for the
hypotheses of every statement. Every expected result comes from the spec: its patterns (R115), its vectors
(spec/95_test_vectors.md) or its rules. -/

set_option maxRecDepth 100000

open Sys2Proof Sys2Proof.Machine

namespace Sys2Proof.Tests

/-! ## Helpers -/

/-- The start of the vectors (section 0 of 95_test_vectors.md) on a model. -/
def Vec.base (m : Model) : State :=
  { State.reset with cfg := { Params.default with model := m }, isp := 0x2000, usp := 0x3000, pc := 0x1000 }

/-- The same on mc68000, the vectors' default. -/
def Vec.b : State := Vec.base .mc68000

def Vec.putW (a : Word) (ws : List Half) (s : State) : State := s.putWords 6 a ws
def Vec.putL (a v : Word) (s : State) : State := s.putBytes 5 a v 4
def Vec.prog (ws : List Half) (s : State) : State := { s.putWords 6 s.pc ws with opcode := ws.headD 0 }
def Vec.setD (n : RegNo) (v : Word) (s : State) : State := s.setD n v
def Vec.setA (n : RegNo) (v : Word) (s : State) : State := s.setA n v
def Vec.setSr (v : Half) (s : State) : State := { s with sr := v }

/-- One step gives a next state with a property. -/
def Vec.after (s : State) (p : State → Bool) : Bool :=
  match step s with
  | .next t => p t
  | _ => false

def Vec.refusal (s : State) : Option Refusal :=
  match step s with
  | .refused r => some r
  | _ => none

def Vec.long (t : State) (a : Word) : Word := t.bytesAt 5 a 4
def Vec.word (t : State) (a : Word) : Word := t.bytesAt 5 a 2
def Vec.byte (t : State) (a : Word) : Word := t.bytesAt 5 a 1
def Vec.ccr (t : State) : Half := t.sr &&& 0x1F

/-- A frame with its status word, stacked PC and format word. -/
def Vec.frame (t : State) (a : Word) (sr : Half) (pc fw : Word) : Bool :=
  Vec.word t a == sr.setWidth 32 && Vec.long t (a + 2) == pc && Vec.word t (a + 6) == fw

/-- A shift of D0 by D1 with X: the result and XNZVC. -/
def Vec.shifts (op : Half) (d c : Word) (x : Bool) (r : Word) (f : Half) : Bool :=
  Vec.after (Vec.b |> Vec.setSr (if x then 0x2710 else 0x2700) |> Vec.setD 0 d |> Vec.setD 1 c |> Vec.prog [op])
    fun t => t.getD 0 == r && Vec.ccr t == f

/-- A decimal instruction on D0 and D1 with X and Z set: the result, the carry, and Z. -/
def Vec.decimal (op : Half) (v d : Word) (x : Bool) (r : Word) (c z : Bool) : Bool :=
  Vec.after (Vec.b |> Vec.setSr (if x then 0x2714 else 0x2704) |> Vec.setD 0 d |> Vec.setD 1 v |> Vec.prog [op])
    fun t => t.getD 0 == r && t.flags.c == c && t.flags.x == c && t.flags.z == z

/-- The words decode to the instruction, and none is left. -/
def Vec.reads (m : Model) (ws : List Half) (i : Instr) : Bool :=
  match decode m ws with
  | .ok (j, []) => decide (j = i)
  | _ => false

/-- A step ends in a next state. -/
def Vec.goes (o : Outcome) : Bool :=
  match o with
  | .next _ => true
  | _ => false

theorem Vec.exists_next {o : Outcome} (h : Vec.goes o = true) : ∃ t, o = .next t := by
  cases o with
  | next t => exact ⟨t, rfl⟩
  | fault f => cases f
  | refused r => cases h

/-! ## Well-formedness: one ill-formed term for each check -/

theorem test_refuses_immediate_too_wide : (Instr.addi .b 0x100 (.dreg 0)).wf = false := by decide
theorem test_refuses_ea_immediate_too_wide : (Instr.addToReg .w 0 (.imm 0x10000)).wf = false := by decide
theorem test_refuses_data_alterable_areg : (Instr.ori .w 1 (.areg 0)).wf = false := by decide
theorem test_refuses_data_alterable_pc : (Instr.clr .w (.pcDisp 0)).wf = false := by decide
theorem test_refuses_data_no_imm : (Instr.btstI 1 (.imm 1)).wf = false := by decide
theorem test_refuses_data_areg : (Instr.divu 0 (.areg 1)).wf = false := by decide
theorem test_refuses_memory_alterable_dreg : (Instr.aslMem (.dreg 1)).wf = false := by decide
theorem test_refuses_control_postinc : (Instr.lea 0 (.postinc 1)).wf = false := by decide
theorem test_refuses_control_alterable_pc : (Instr.movemToMem .l 1 (.pcDisp 0)).wf = false := by decide
theorem test_refuses_alterable_imm : (Instr.addq .w 1 (.imm 1)).wf = false := by decide
theorem test_refuses_byte_areg : (Instr.moveB (.areg 0) (.dreg 0)).wf = false := by decide
theorem test_refuses_byte_movem : (Instr.movemToPredec .b 1 0).wf = false := by decide
theorem test_refuses_short_zero : (Instr.bra (.short 0)).wf = false := by decide
theorem test_refuses_bcc_false : (Instr.bcc .f (.short 2)).wf = false := by decide
theorem test_refuses_class_all : EaClass.all.admits 7 5 = false ∧ EaClass.memory.admits 1 0 = false := by decide
theorem test_refuses_chk2_size : (Instr.chk2Cmp2 3 ⟨2, 0⟩).wf = false := by decide
theorem test_refuses_cas_size : (Instr.cas 0 ⟨2, 0⟩).wf = false ∧ (Instr.cas 1 ⟨7, 4⟩).wf = false := by decide
theorem test_refuses_trapcc_opmode : (Instr.trapcc .eq 5).wf = false := by decide
theorem test_refuses_tst20_mode : (Instr.tst20 .b ⟨1, 0⟩).wf = false ∧ (Instr.tst20 .w ⟨0, 0⟩).wf = false := by decide
theorem test_refuses_cmpi20_mode : (Instr.cmpi20 .w ⟨7, 4⟩).wf = false := by decide
theorem test_refuses_model :
    (Instr.rtd 0).onModel .mc68000 = false ∧ (Instr.extbL 0).onModel .mc68010 = false ∧
    (Instr.bra (.short 0xFF)).onModel .mc68020 = false := by decide

/-! ## Decoding: words written out from the patterns of R115 and R120 -/

theorem test_decode_immediates :
    (Vec.reads .mc68010 [0x003C, 0x0012] (.oriCcr 0x12) &&
    Vec.reads .mc68010 [0x007C, 0x2700] (.oriSr 0x2700) &&
    Vec.reads .mc68010 [0x0053, 0x1234] (.ori .w 0x1234 (.ind 3)) &&
    Vec.reads .mc68010 [0x023C, 0x001F] (.andiCcr 0x1F) &&
    Vec.reads .mc68010 [0x027C, 0xF8FF] (.andiSr 0xF8FF) &&
    Vec.reads .mc68010 [0x0202, 0x000F] (.andi .b 0x0F (.dreg 2)) &&
    Vec.reads .mc68010 [0x049C, 0x0001, 0x0002] (.subi .l 0x00010002 (.postinc 4)) &&
    Vec.reads .mc68010 [0x0661, 0x0005] (.addi .w 5 (.predec 1)) &&
    Vec.reads .mc68010 [0x0A3C, 0x0003] (.eoriCcr 3) &&
    Vec.reads .mc68010 [0x0A7C, 0x0700] (.eoriSr 0x0700) &&
    Vec.reads .mc68010 [0x0A87, 0x8000, 0x0001] (.eori .l 0x80000001 (.dreg 7)) &&
    Vec.reads .mc68010 [0x0C10, 0x007F] (.cmpi .b 0x7F (.ind 0))) = true := by decide

theorem test_decode_bits :
    (Vec.reads .mc68010 [0x0803, 0x0007] (.btstI 7 (.dreg 3)) &&
    Vec.reads .mc68010 [0x0852, 0x0006] (.bchgI 6 (.ind 2)) &&
    Vec.reads .mc68010 [0x08A9, 0x0005, 0x0010] (.bclrI 5 (.disp 1 0x10)) &&
    Vec.reads .mc68010 [0x08F8, 0x0004, 0x4000] (.bsetI 4 (.absW 0x4000)) &&
    Vec.reads .mc68010 [0x073C, 0x0005] (.btstD 3 (.imm 5)) &&
    Vec.reads .mc68010 [0x0342] (.bchgD 1 (.dreg 2)) &&
    Vec.reads .mc68010 [0x0595] (.bclrD 2 (.ind 5)) &&
    Vec.reads .mc68010 [0x0FDE] (.bsetD 7 (.postinc 6)) &&
    Vec.reads .mc68010 [0x4AD0] (.tas (.ind 0))) = true := by decide

theorem test_decode_moves :
    (Vec.reads .mc68010 [0x0E92, 0xB800] (.moves .l true (.a 3) (.ind 2)) &&
    Vec.reads .mc68010 [0x050B, 0x0004] (.movepLoadW 2 3 4) &&
    Vec.reads .mc68010 [0x054B, 0x0004] (.movepLoadL 2 3 4) &&
    Vec.reads .mc68010 [0x058B, 0x0004] (.movepStoreW 2 3 4) &&
    Vec.reads .mc68010 [0x05CB, 0x0004] (.movepStoreL 2 3 4) &&
    Vec.reads .mc68010 [0x1411] (.moveB (.ind 1) (.dreg 2)) &&
    Vec.reads .mc68010 [0x23FC, 0x1234, 0x5678, 0x0000, 0x1000] (.moveL (.imm 0x12345678) (.absL 0x1000)) &&
    Vec.reads .mc68010 [0x38E3] (.moveW (.predec 3) (.postinc 4)) &&
    Vec.reads .mc68010 [0x2A4E] (.moveaL 5 (.areg 6)) &&
    Vec.reads .mc68010 [0x347A, 0x0010] (.moveaW 2 (.pcDisp 0x10)) &&
    Vec.reads .mc68010 [0x7680] (.moveq 3 0x80) &&
    Vec.reads .mc68010 [0x4891, 0x0003] (.movemToMem .w 3 (.ind 1)) &&
    Vec.reads .mc68010 [0x48E7, 0xC0C0] (.movemToPredec .l 0xC0C0 7) &&
    Vec.reads .mc68010 [0x4CFA, 0x00FF, 0x0008] (.movemFromMem .l 0xFF (.pcDisp 8)) &&
    Vec.reads .mc68010 [0x4C98, 0x0101] (.movemFromPostinc .w 0x101 0) &&
    Vec.reads .mc68010 [0x45FB, 0xA804] (.lea 2 (.pcIndex ⟨true, 2, true, 0, false, 4⟩)) &&
    Vec.reads .mc68010 [0x486F, 0x0004] (.pea (.disp 7 4)) &&
    Vec.reads .mc68010 [0x4E56, 0xFFFC] (.link 6 0xFFFC) &&
    Vec.reads .mc68010 [0x4E5E] (.unlk 6) &&
    Vec.reads .mc68010 [0x4845] (.swap 5) &&
    Vec.reads .mc68010 [0xC342] (.exgDD 1 2) &&
    Vec.reads .mc68010 [0xC34A] (.exgAA 1 2) &&
    Vec.reads .mc68010 [0xC38A] (.exgDA 1 2)) = true := by decide

theorem test_decode_arithmetic :
    (Vec.reads .mc68010 [0xD081] (.addToReg .l 0 (.dreg 1)) &&
    Vec.reads .mc68010 [0xD734, 0x30FE] (.addToMem .b 3 (.index 4 ⟨false, 3, false, 0, false, 0xFE⟩)) &&
    Vec.reads .mc68010 [0xDFFC, 0x0000, 0x0008] (.adda .l 7 (.imm 8)) &&
    Vec.reads .mc68010 [0xD302] (.addxReg .b 1 2) &&
    Vec.reads .mc68010 [0xD34A] (.addxMem .w 1 2) &&
    Vec.reads .mc68010 [0x564A] (.addq .w 3 (.areg 2)) &&
    Vec.reads .mc68010 [0x9C4F] (.subToReg .w 6 (.areg 7)) &&
    Vec.reads .mc68010 [0x9DB8, 0x1000] (.subToMem .l 6 (.absW 0x1000)) &&
    Vec.reads .mc68010 [0x97C2] (.suba .l 3 (.dreg 2)) &&
    Vec.reads .mc68010 [0x9342] (.subxReg .w 1 2) &&
    Vec.reads .mc68010 [0x938A] (.subxMem .l 1 2) &&
    Vec.reads .mc68010 [0x5181] (.subq .l 0 (.dreg 1)) &&
    Vec.reads .mc68010 [0xB29A] (.cmp .l 1 (.postinc 2)) &&
    Vec.reads .mc68010 [0xBAFC, 0xFFFF] (.cmpa .w 5 (.imm 0xFFFF)) &&
    Vec.reads .mc68010 [0xB30A] (.cmpm .b 1 2) &&
    Vec.reads .mc68010 [0xC2C2] (.mulu 1 (.dreg 2)) &&
    Vec.reads .mc68010 [0xC3C2] (.muls 1 (.dreg 2)) &&
    Vec.reads .mc68010 [0x84C3] (.divu 2 (.dreg 3)) &&
    Vec.reads .mc68010 [0x85C3] (.divs 2 (.dreg 3)) &&
    Vec.reads .mc68010 [0x4492] (.neg .l (.ind 2)) &&
    Vec.reads .mc68010 [0x4044] (.negx .w (.dreg 4)) &&
    Vec.reads .mc68010 [0x4227] (.clr .b (.predec 7)) &&
    Vec.reads .mc68010 [0x4A01] (.tst .b (.dreg 1)) &&
    Vec.reads .mc68010 [0x4882] (.extW 2) &&
    Vec.reads .mc68010 [0x48C3] (.extL 3)) = true := by decide

theorem test_decode_logical_and_decimal :
    (Vec.reads .mc68010 [0xC805] (.andToReg .b 4 (.dreg 5)) &&
    Vec.reads .mc68010 [0xC955] (.andToMem .w 4 (.ind 5)) &&
    Vec.reads .mc68010 [0x8292] (.orToReg .l 1 (.ind 2)) &&
    Vec.reads .mc68010 [0x8312] (.orToMem .b 1 (.ind 2)) &&
    Vec.reads .mc68010 [0xB543] (.eor .w 2 (.dreg 3)) &&
    Vec.reads .mc68010 [0x4643] (.notEa .w (.dreg 3)) &&
    Vec.reads .mc68010 [0xC302] (.abcdReg 1 2) &&
    Vec.reads .mc68010 [0xC30A] (.abcdMem 1 2) &&
    Vec.reads .mc68010 [0x8905] (.sbcdReg 4 5) &&
    Vec.reads .mc68010 [0x890D] (.sbcdMem 4 5) &&
    Vec.reads .mc68010 [0x4821] (.nbcd (.predec 1))) = true := by decide

theorem test_decode_shifts :
    (Vec.reads .mc68010 [0xE644] (.asrReg .w (.quick 3) 4) &&
    Vec.reads .mc68010 [0xE320] (.aslReg .b (.reg 1) 0) &&
    Vec.reads .mc68010 [0xE08A] (.lsrReg .l (.quick 0) 2) &&
    Vec.reads .mc68010 [0xEBAA] (.lslReg .l (.reg 5) 2) &&
    Vec.reads .mc68010 [0xE253] (.roxrReg .w (.quick 1) 3) &&
    Vec.reads .mc68010 [0xE353] (.roxlReg .w (.quick 1) 3) &&
    Vec.reads .mc68010 [0xE43B] (.rorReg .b (.reg 2) 3) &&
    Vec.reads .mc68010 [0xEF9B] (.rolReg .l (.quick 7) 3) &&
    Vec.reads .mc68010 [0xE0D1] (.asrMem (.ind 1)) &&
    Vec.reads .mc68010 [0xE1D1] (.aslMem (.ind 1)) &&
    Vec.reads .mc68010 [0xE2D1] (.lsrMem (.ind 1)) &&
    Vec.reads .mc68010 [0xE3D1] (.lslMem (.ind 1)) &&
    Vec.reads .mc68010 [0xE4D1] (.roxrMem (.ind 1)) &&
    Vec.reads .mc68010 [0xE5D1] (.roxlMem (.ind 1)) &&
    Vec.reads .mc68010 [0xE6D1] (.rorMem (.ind 1)) &&
    Vec.reads .mc68010 [0xE7D1] (.rolMem (.ind 1))) = true := by decide

theorem test_decode_control_flow :
    (Vec.reads .mc68010 [0x6010] (.bra (.short 0x10)) &&
    Vec.reads .mc68010 [0x6100, 0x0100] (.bsr (.word 0x100)) &&
    Vec.reads .mc68010 [0x6DFA] (.bcc .lt (.short 0xFA)) &&
    Vec.reads .mc68010 [0x56CA, 0xFFFE] (.dbcc .ne 2 0xFFFE) &&
    Vec.reads .mc68010 [0x57C0] (.scc .eq (.dreg 0)) &&
    Vec.reads .mc68010 [0x4EB9, 0x1234, 0x5678] (.jsr (.absL 0x12345678)) &&
    Vec.reads .mc68010 [0x4ED0] (.jmp (.ind 0)) &&
    Vec.reads .mc68010 [0x4E75] (.rts) &&
    Vec.reads .mc68010 [0x4E77] (.rtr) &&
    Vec.reads .mc68010 [0x4E74, 0x0008] (.rtd 8) &&
    Vec.reads .mc68010 [0x4E71] (.nop)) = true := by decide

theorem test_decode_system :
    (Vec.reads .mc68010 [0x40D1] (.moveFromSr (.ind 1)) &&
    Vec.reads .mc68010 [0x42C1] (.moveFromCcr (.dreg 1)) &&
    Vec.reads .mc68010 [0x44FC, 0x001F] (.moveToCcr (.imm 0x1F)) &&
    Vec.reads .mc68010 [0x46C0] (.moveToSr (.dreg 0)) &&
    Vec.reads .mc68010 [0x4E63] (.moveToUsp 3) &&
    Vec.reads .mc68010 [0x4E6C] (.moveFromUsp 4) &&
    Vec.reads .mc68010 [0x4E7A, 0x1000] (.movecFrom (.d 1) 0) &&
    Vec.reads .mc68010 [0x4E7B, 0x8801] (.movecTo (.a 0) 0x801) &&
    Vec.reads .mc68010 [0x4E70] (.reset) &&
    Vec.reads .mc68010 [0x4E72, 0x2000] (.stop 0x2000) &&
    Vec.reads .mc68010 [0x4E73] (.rte) &&
    Vec.reads .mc68010 [0x4E45] (.trap 5) &&
    Vec.reads .mc68010 [0x4E76] (.trapv) &&
    Vec.reads .mc68010 [0x4785] (.chk 3 (.dreg 5)) &&
    Vec.reads .mc68010 [0x4AFC] (.illegal) &&
    Vec.reads .mc68010 [0x484B] (.bkpt 3) &&
    Vec.reads .mc68010 [0xA123] (.lineA 0x123) &&
    Vec.reads .mc68010 [0xFFFF] (.lineF 0xFFF)) = true := by decide

theorem test_decode_mc68020_patterns :
    (Vec.reads .mc68020 [0x02D3] (.chk2Cmp2 1 ⟨2, 3⟩) &&
    Vec.reads .mc68020 [0x0CD1] (.cas 2 ⟨2, 1⟩) &&
    Vec.reads .mc68020 [0x06CB] (.rtm true 3) &&
    Vec.reads .mc68020 [0x06D4] (.callm ⟨2, 4⟩) &&
    Vec.reads .mc68020 [0x4503] (.chkL 2 ⟨0, 3⟩) &&
    Vec.reads .mc68020 [0x480D] (.linkL 5) &&
    Vec.reads .mc68020 [0x49C6] (.extbL 6) &&
    Vec.reads .mc68020 [0x4C01] (.mulL ⟨0, 1⟩) &&
    Vec.reads .mc68020 [0x4C42] (.divL ⟨0, 2⟩) &&
    Vec.reads .mc68020 [0x57FA] (.trapcc .eq 2) &&
    Vec.reads .mc68020 [0x8342] (.pack 1 false 2) &&
    Vec.reads .mc68020 [0x838A] (.unpk 1 true 2) &&
    Vec.reads .mc68020 [0xEBC4] (.bitField 3 ⟨0, 4⟩) &&
    Vec.reads .mc68020 [0x4A4A] (.tst20 .w ⟨1, 2⟩) &&
    Vec.reads .mc68020 [0x0CBA] (.cmpi20 .l ⟨7, 2⟩) &&
    Vec.reads .mc68020 [0x67FF] (.bccL .eq)) = true := by decide

/-! ## One step: the vectors of spec/95_test_vectors.md, by their numbers there -/

/-- E1. -/
theorem test_status_mask :
    ((Vec.b.setSR 0xFFFF).sr == 0xA71F && ((Vec.base .mc68010).setSR 0xFFFF).sr == 0xA71F &&
      ((Vec.base .mc68020).setSR 0xFFFF).sr == 0xF71F && (Vec.b.setSR 0x58E0).sr == 0 &&
      ((Vec.base .mc68020).setSR 0x58E0).sr == 0x5000) = true := by decide

/-- E2. -/
theorem test_stack_banking :
    (let s := Vec.b.setSR 0; s.getSP == 0x3000 && ((s.setSP 0x3100).setSR 0x2000).getSP == 0x2000 &&
      ((s.setSP 0x3100).setSR 0x2000).usp == 0x3100) = true := by decide

/-- V3. -/
theorem test_set_ccr :
    ((Vec.b.setCCR 0xFF).sr == 0x271F) = true := by decide

/-- E3. -/
theorem test_asl_count_zero :
    (Vec.after (Vec.b |> Vec.setSr 0x2710 |> Vec.setD 0 0x80 |> Vec.prog [0xE320]) fun t => t.d[0] == 0x80 &&
      Vec.ccr t == 0b11000) = true := by decide

/-- E4. -/
theorem test_divu_by_zero :
    (Vec.after (Vec.b |> Vec.setD 0 10 |> Vec.setSr 0x270F |> Vec.prog [0x80C1]) fun t => t.d[0] == 10 &&
      Vec.frame t 0x1FF8 0x270E 0x1002 0x14 && t.isp == 0x1FF8) = true := by decide

/-- E5. -/
theorem test_divs_overflow :
    (Vec.after (Vec.b |> Vec.setD 0 0x10000 |> Vec.setD 1 1 |> Vec.setSr 0x271F |> Vec.prog [0x81C1]) fun t =>
      t.d[0] == 0x10000 && t.sr == 0x271F && t.pc == 0x1002) = true := by decide

/-- E5s. -/
theorem test_divs_overflow_silicon :
    (Vec.after ({Vec.b with cfg := {Vec.b.cfg with divOverflow := .silicon}} |> Vec.setD 0 0x10000 |>
      Vec.setD 1 1 |> Vec.setSr 0x271D |> Vec.prog [0x81C1]) fun t => t.d[0] == 0x10000 && t.sr == 0x271E &&
      t.pc == 0x1002) = true := by decide

/-- E7. -/
theorem test_abcd_carry :
    (Vec.after (Vec.b |> Vec.setSr 0x2704 |> Vec.setD 0 1 |> Vec.setD 1 0x99 |> Vec.prog [0xC101]) fun t =>
      t.d[0] == 0x0 && Vec.ccr t == 0b10101) = true := by decide

/-- E8. -/
theorem test_movem_predec_order :
    (Vec.after (Vec.b |> Vec.setA 0 0x11111111 |> Vec.setA 1 0x22222222 |> Vec.prog [0x48E7,0xC0]) fun t =>
      Vec.long t 0x1FFC == 0x22222222 && Vec.long t 0x1FF8 == 0x11111111 && t.isp == 0x1FF8 && t.pc == 0x1004) = true := by decide

/-- E10. -/
theorem test_first_step_nop :
    (Vec.after (resetProcedure (Vec.b |> Vec.putL 0 0x2000 |> Vec.putL 4 0x1000 |> Vec.putW 0x1000 [0x4E71])) fun t =>
      t.pc == 0x1002 && t.icount == 1 && t.sr == 0x2700 && t.isp == 0x2000) = true := by decide

/-- E11b. -/
theorem test_bkpt_without_callback :
    (Vec.after (Vec.b |> Vec.prog [0x484A]) fun t => Vec.frame t 0x1FF8 0x2700 0x1000 0x10) = true := by decide

/-- E13. -/
theorem test_move_l_big_endian :
    (Vec.after (Vec.b |> Vec.setA 0 0x3000 |> Vec.setD 0 0x11223344 |> Vec.prog [0x2080]) fun t =>
      Vec.byte t 0x3000 == 0x11 && Vec.byte t 0x3003 == 0x44) = true := by decide

/-- E14. -/
theorem test_movec_invalid :
    (Vec.after (Vec.base .mc68010 |> Vec.prog [0x4E7B,2]) fun t => Vec.frame t 0x1FF8 0x2700 0x1000 0x10) = true := by decide

/-- E15. -/
theorem test_stop_finished :
    (Vec.after (Vec.b |> Vec.prog [0x4E72,0xFFFF]) fun t => t.sr == 0xA71F && t.run == .finished &&
      t.pc == 0x1004) = true := by decide

/-- E15b. -/
theorem test_stop_stopped :
    (Vec.after (Vec.b |> Vec.prog [0x4E72,0x2700]) fun t => t.sr == 0x2700 && t.run == .stopped &&
      t.pc == 0x1004) = true := by decide

/-- V2. -/
theorem test_master_stack :
    (({Vec.base .mc68020 with msp := 0x4000}.setSR 0x3000).getSP == 0x4000 &&
      (({Vec.base .mc68020 with msp := 0x4000}.setSR 0x3000).setSR 0x2000).getSP == 0x2000) = true := by decide

/-- V6. -/
theorem test_movec_from_usp :
    (Vec.after (Vec.base .mc68010 |> Vec.prog [0x4E7A,0x8800]) fun t => t.a[0] == 0x3000) = true := by decide

/-- V10. -/
theorem test_move_l_even_address :
    (Vec.after (Vec.b |> Vec.setA 0 0x3000 |> Vec.putW 0x3000 [0x1122,0x3344,0x5566] |> Vec.prog [0x2428,2]) fun t =>
      t.d[2] == 0x33445566) = true := by decide

/-- V13. -/
theorem test_predec_wraps :
    (Vec.after (Vec.b |> Vec.setA 0 0 |> Vec.setD 0 0xABCD |> Vec.prog [0x3100]) fun t => t.a[0] == 0xFFFFFFFE &&
      Vec.word t 0xFFFFFFFE == 0xABCD) = true := by decide

/-- V14. -/
theorem test_self_modifying :
    (Vec.after (Vec.b |> Vec.putW 0x1006 [0x4AFC] |> Vec.prog [0x31FC,0x4E71,0x1006]) fun t =>
      t.opcode == 0x4E71 && t.pc == 0x1006) = true := by decide

/-- V16. -/
theorem test_moves_from_sfc :
    (Vec.after ({Vec.base .mc68010 with sfc := 3} |> Vec.setA 0 0x3000 |> Vec.putW 0x3000 [0x1234] |>
      Vec.prog [0x0E50,0]) fun t => t.d[0] == 0x1234) = true := by decide

/-- V25. -/
theorem test_extb_l_by_model :
    (Vec.after (Vec.b |> Vec.prog [0x49C0]) (fun t => Vec.frame t 0x1FF8 0x2700 0x1000 0x10) &&
      Vec.refusal (Vec.base .mc68020 |> Vec.prog [0x49C0]) == some (.mc68020Only "EXTB.L")) = true := by decide

/-- V27. -/
theorem test_illegal_word :
    (Vec.after (Vec.b |> Vec.prog [0x7100]) fun t => Vec.frame t 0x1FF8 0x2700 0x1000 0x10) = true := by decide

/-- V31. -/
theorem test_line_a :
    (Vec.after (Vec.b |> Vec.prog [0xA000]) fun t => Vec.frame t 0x1FF8 0x2700 0x1000 0x28) = true := by decide

/-- V32. -/
theorem test_line_f :
    (Vec.after (Vec.b |> Vec.prog [0xFFFF]) fun t => Vec.frame t 0x1FF8 0x2700 0x1000 0x2C) = true := by decide

/-- V34. -/
theorem test_move_from_sr_by_model :
    (Vec.after (Vec.b |> Vec.setSr 4 |> Vec.prog [0x40C0]) (fun t => t.d[0] == 4) &&
      Vec.after (Vec.base .mc68010 |> Vec.setSr 4 |>
      Vec.prog [0x40C0]) (fun t => Vec.frame t 0x1FF8 4 0x1000 0x20 && t.sr == 0x2004)) = true := by decide

/-- V35. -/
theorem test_brief_word_by_model :
    (Vec.refusal (Vec.base .mc68020 |> Vec.prog [0x2030,0xC00]) == some .extensionWord68020 && Vec.after (Vec.b |>
      Vec.setA 0 0x3000 |> Vec.setD 0 8 |> Vec.putL 0x3008 0x77 |>
      Vec.prog [0x2030,0xC00]) (fun t => t.d[0] == 0x77)) = true := by decide

/-- V36. -/
theorem test_stop_privilege :
    (Vec.after (Vec.b |> Vec.setSr 0 |> Vec.prog [0x4E72]) fun t => Vec.frame t 0x1FF8 0 0x1000 0x20) = true := by decide

/-- V37. -/
theorem test_trace_refused :
    (Vec.refusal (Vec.b |> Vec.setSr 0xA700 |> Vec.prog [0x4E71]) == some .trace &&
      Vec.refusal (Vec.base .mc68020 |> Vec.setSr 0x6700 |> Vec.prog [0x4E71]) == some .trace) = true := by decide

/-- V40. -/
theorem test_byte_pop_a7 :
    (Vec.after (Vec.b |> Vec.putW 0x2000 [0xAB00] |> Vec.prog [0x101F]) fun t => t.d[0] == 0xAB &&
      t.isp == 0x2002) = true := by decide

/-- V43. -/
theorem test_index_long :
    (Vec.after (Vec.b |> Vec.setA 0 0x3000 |> Vec.setD 1 0xFFFFFFF0 |> Vec.putL 0x2FF8 0xCAFEBABE |>
      Vec.prog [0x2430,0x1808]) fun t => t.d[2] == 0xCAFEBABE) = true := by decide

/-- V44. -/
theorem test_index_word :
    (Vec.after (Vec.b |> Vec.setA 0 0x3000 |> Vec.setD 1 0x0001FFF0 |> Vec.putL 0x2FF8 0xCAFEBABE |>
      Vec.prog [0x2430,0x1008]) fun t => t.d[2] == 0xCAFEBABE) = true := by decide

/-- V45. -/
theorem test_pc_relative :
    (Vec.after (Vec.b |> Vec.putW 0x1006 [0x1234] |> Vec.prog [0x303A,4]) fun t => t.d[0] == 0x1234) = true := by decide

/-- V47. -/
theorem test_lea_negative :
    (Vec.after (Vec.b |> Vec.setA 0 0x3000 |> Vec.prog [0x43E8,0xFFFE]) fun t => t.a[1] == 0x2FFE) = true := by decide

/-- V49. -/
theorem test_addx_mem_same_register :
    (Vec.after (Vec.b |> Vec.setA 0 0x3004 |> Vec.putW 0x3000 [2,3] |> Vec.prog [0xD148]) fun t =>
      t.a[0] == 0x3000 && Vec.word t 0x3000 == 5) = true := by decide

/-- V52. -/
theorem test_cmp_less :
    (Vec.after (Vec.b |> Vec.setD 0 3 |> Vec.setD 1 5 |> Vec.prog [0xB041]) fun t => Vec.ccr t == 9 &&
      [Cond.ls,.cs,.ne,.mi,.lt,.le].all (condTest · t.flags) &&
      !([Cond.hi,.cc,.eq,.ge,.gt].any (condTest · t.flags))) = true := by decide

/-- V54. -/
theorem test_cmp_signed_unsigned :
    (Vec.after (Vec.b |> Vec.setD 0 1 |> Vec.setD 1 0xFFFF |> Vec.prog [0xB041]) fun t => Vec.ccr t == 1 &&
      [Cond.cs,.ls,.gt,.ge].all (condTest · t.flags) && !([Cond.hi,.cc,.lt,.le].any (condTest · t.flags))) = true := by decide

/-- V55. -/
theorem test_add_b_overflow :
    (Vec.after (Vec.b |> Vec.setD 0 0x7F |> Vec.setD 1 0x7F |> Vec.prog [0xD001]) fun t => t.d[0] == 0xFE &&
      Vec.ccr t == 0b01010) = true := by decide

/-- V57. -/
theorem test_add_l_carry_overflow :
    (Vec.after (Vec.b |> Vec.setD 0 0x80000000 |> Vec.setD 1 0x80000000 |> Vec.prog [0xD081]) fun t =>
      t.d[0] == 0 && Vec.ccr t == 0b10111) = true := by decide

/-- V58. -/
theorem test_sub_b_overflow :
    (Vec.after (Vec.b |> Vec.setD 0 0x80 |> Vec.setD 1 1 |> Vec.prog [0x9001]) fun t => t.d[0] == 0x7F &&
      Vec.ccr t == 0b00010) = true := by decide

/-- V59. -/
theorem test_sub_l_borrow :
    (Vec.after (Vec.b |> Vec.setD 0 0 |> Vec.setD 1 0x80000000 |> Vec.prog [0x9081]) fun t =>
      t.d[0] == 0x80000000 && Vec.ccr t == 0b11011) = true := by decide

/-- V61. -/
theorem test_addx_sticky_z :
    (Vec.after (Vec.b |> Vec.setSr 0x2710 |> Vec.setD 0 0xFFFFFFFF |> Vec.setD 1 0 |> Vec.prog [0xD181]) fun t =>
      t.d[0] == 0 && Vec.ccr t == 0b10001) = true := by decide

/-- V62. -/
theorem test_subx_x :
    (Vec.after (Vec.b |> Vec.setSr 0x2710 |> Vec.prog [0x9101]) fun t => t.d[0] == 0xFF && Vec.ccr t == 0b11001) = true := by decide

/-- V63. -/
theorem test_neg_w_min :
    (Vec.after (Vec.b |> Vec.setD 0 0x8000 |> Vec.prog [0x4440]) fun t => t.d[0] == 0x8000 &&
      Vec.ccr t == 0b11011) = true := by decide

/-- V64. -/
theorem test_neg_zero :
    (Vec.after (Vec.b |> Vec.prog [0x4400]) fun t => t.d[0] == 0 && Vec.ccr t == 0b00100) = true := by decide

/-- V65. -/
theorem test_and_l :
    (Vec.after (Vec.b |> Vec.setSr 0x2713 |> Vec.setD 0 0xF0F0F0F0 |> Vec.setD 1 0x0F0F0F0F |>
      Vec.prog [0xC081]) fun t => t.d[0] == 0 && Vec.ccr t == 0b10100) = true := by decide

/-- V71. -/
theorem test_movea_w_sign :
    (Vec.after (Vec.b |> Vec.setSr 0x271F |> Vec.prog [0x307C,0x8000]) fun t => t.a[0] == 0xFFFF8000 &&
      Vec.ccr t == 0x1F) = true := by decide

/-- V72. -/
theorem test_moveq :
    (Vec.after (Vec.b |> Vec.prog [0x767F]) fun t => t.d[3] == 0x7F && Vec.ccr t == 0) = true := by decide

/-- V73. -/
theorem test_movem_stores_initial_an :
    (Vec.after (Vec.b |> Vec.setA 0 0x3010 |> Vec.setA 1 0x1111 |> Vec.prog [0x48E0,0xC0]) fun t =>
      Vec.long t 0x300C == 0x1111 && Vec.long t 0x3008 == 0x3010 && t.a[0] == 0x3008) = true := by decide

/-- V74. -/
theorem test_movem_stores_final_an_68020 :
    (Vec.after (Vec.base .mc68020 |> Vec.setA 0 0x3010 |> Vec.setA 1 0x1111 |> Vec.prog [0x48E0,0xC0]) fun t =>
      Vec.long t 0x300C == 0x1111 && Vec.long t 0x3008 == 0x3008 && t.a[0] == 0x3008) = true := by decide

/-- V75. -/
theorem test_movem_postinc_loads_an :
    (Vec.after (Vec.b |> Vec.setA 0 0x3000 |> Vec.putW 0x3000 [0x8001,0x1234] |> Vec.prog [0x4C98,0x101]) fun t =>
      t.d[0] == 0xFFFF8001 && t.a[0] == 0x3004) = true := by decide

/-- V77. -/
theorem test_movep_l_store :
    (Vec.after (Vec.b |> Vec.setA 0 0x3001 |> Vec.setD 0 0x11223344 |> Vec.prog [0x01C8,0]) fun t =>
      Vec.byte t 0x3001 == 0x11 && Vec.byte t 0x3003 == 0x22 && Vec.byte t 0x3005 == 0x33 &&
      Vec.byte t 0x3007 == 0x44) = true := by decide

/-- V78. -/
theorem test_exg :
    (Vec.after (Vec.b |> Vec.setD 0 1 |> Vec.setA 1 2 |> Vec.prog [0xC189]) fun t => t.d[0] == 2 && t.a[1] == 1) = true := by decide

/-- V79. -/
theorem test_link_a7 :
    (Vec.after (Vec.b |> Vec.prog [0x4E57,0xFFFC]) fun t => Vec.long t 0x1FFC == 0x1FFC && t.isp == 0x1FF8) = true := by decide

/-- V80. -/
theorem test_pea_a7 :
    (Vec.after (Vec.b |> Vec.prog [0x486F,4]) fun t => Vec.long t 0x1FFC == 0x2004 && t.isp == 0x1FFC) = true := by decide

/-- V90. -/
theorem test_addq_b :
    (Vec.after (Vec.b |> Vec.setD 0 0xF8 |> Vec.prog [0x5000]) fun t => t.d[0] == 0 && Vec.ccr t == 0b10101) = true := by decide

/-- V91. -/
theorem test_subq_an :
    (Vec.after (Vec.b |> Vec.setSr 0x271F |> Vec.prog [0x5388]) fun t => t.a[0] == 0xFFFFFFFF &&
      Vec.ccr t == 0x1F) = true := by decide

/-- V92. -/
theorem test_cmpa_w_sign :
    (Vec.after (Vec.b |> Vec.setA 0 0xFFFFFFFF |> Vec.prog [0xB0FC,0xFFFF]) fun t => Vec.ccr t == 4) = true := by decide

/-- V94. -/
theorem test_divu :
    (Vec.after (Vec.b |> Vec.setD 0 0xFFFF |> Vec.setD 1 1 |> Vec.prog [0x80C1]) fun t => t.d[0] == 0xFFFF &&
      Vec.ccr t == 8) = true := by decide

/-- V95. -/
theorem test_divs_negative_quotient :
    (Vec.after (Vec.b |> Vec.setD 0 7 |> Vec.setD 1 0xFFFE |> Vec.prog [0x81C1]) fun t => t.d[0] == 0x0001FFFD &&
      Vec.ccr t == 8) = true := by decide

/-- V101. -/
theorem test_muls_min :
    (Vec.after (Vec.b |> Vec.setD 0 0x12348000 |> Vec.setD 1 0x8000 |> Vec.prog [0xC1C1]) fun t =>
      t.d[0] == 0x40000000 && Vec.ccr t == 0) = true := by decide

/-- V102. -/
theorem test_mulu :
    (Vec.after (Vec.b |> Vec.setD 0 0x12340002 |> Vec.setD 1 0xFFFF0003 |> Vec.prog [0xC0C1]) fun t =>
      t.d[0] == 6) = true := by decide

/-- V104. -/
theorem test_clr_b :
    (Vec.after (Vec.b |> Vec.setD 0 0x12345678 |> Vec.setSr 0x271F |> Vec.prog [0x4200]) fun t =>
      t.d[0] == 0x12345600 && Vec.ccr t == 0x14) = true := by decide

/-- V105. -/
theorem test_negx_sticky_z :
    (Vec.after (Vec.b |> Vec.setSr 0x2704 |> Vec.prog [0x4000]) fun t => t.d[0] == 0 && Vec.ccr t == 4) = true := by decide

/-- V110. -/
theorem test_not_b :
    (Vec.after (Vec.b |> Vec.setSr 0x2710 |> Vec.setD 0 0xFF |> Vec.prog [0x4600]) fun t => t.d[0] == 0 &&
      Vec.ccr t == 0x14) = true := by decide

/-- V111. -/
theorem test_eor_w :
    (Vec.after (Vec.b |> Vec.setD 0 0x8000 |> Vec.setD 1 0x8000 |> Vec.prog [0xB340]) fun t => t.d[0] == 0 &&
      Vec.ccr t == 4) = true := by decide

/-- V112. -/
theorem test_andi_b :
    (Vec.after (Vec.b |> Vec.setD 0 0x12345678 |> Vec.prog [0x0200,0]) fun t => t.d[0] == 0x12345600 &&
      Vec.ccr t == 4) = true := by decide

/-- V114. -/
theorem test_ori_b_ignores_high_byte :
    (Vec.after (Vec.b |> Vec.setD 0 0xF |> Vec.prog [0x0000,0xFF80]) fun t => t.d[0] == 0x8F && Vec.ccr t == 8) = true := by decide

/-- V115. -/
theorem test_and_to_memory :
    (Vec.after (Vec.b |> Vec.setA 0 0x3000 |> Vec.putW 0x3000 [0xF0F0] |> Vec.setD 1 0xFFFF |>
      Vec.prog [0xC350]) fun t => Vec.word t 0x3000 == 0xF0F0 && Vec.ccr t == 8) = true := by decide

/-- V150. -/
theorem test_btst_dn_memory :
    (Vec.after (Vec.b |> Vec.setA 0 0x3000 |> Vec.putW 0x3000 [0x0200] |> Vec.setD 1 9 |> Vec.setSr 0x271F |>
      Vec.prog [0x0310]) fun t => Vec.ccr t == 0x1B) = true := by decide

/-- V151. -/
theorem test_bset_dn_register :
    (Vec.after (Vec.b |> Vec.setD 1 0x3F |> Vec.prog [0x03C0]) fun t => t.d[0] == 0x80000000 && Vec.ccr t == 4) = true := by decide

/-- V152. -/
theorem test_bchg_memory_modulo_8 :
    (Vec.after (Vec.b |> Vec.setA 0 0x3000 |> Vec.putW 0x3000 [0x0100] |> Vec.prog [0x0850,8]) fun t =>
      Vec.byte t 0x3000 == 0 && Vec.ccr t == 0) = true := by decide

/-- V154. -/
theorem test_tas :
    (Vec.after (Vec.b |> Vec.setA 0 0x3000 |> Vec.putW 0x3000 [0x8000] |> Vec.setSr 0x2703 |>
      Vec.prog [0x4AD0]) fun t => Vec.byte t 0x3000 == 0x80 && Vec.ccr t == 8) = true := by decide

/-- V155. -/
theorem test_bclr_register :
    (Vec.after (Vec.b |> Vec.setD 0 1 |> Vec.setSr 0x271B |> Vec.prog [0x0880,0]) fun t => t.d[0] == 0 &&
      Vec.ccr t == 0x1B) = true := by decide

/-- V170. -/
theorem test_beq_not_taken :
    (Vec.after (Vec.b |> Vec.prog [0x6700,0x10]) fun t => t.pc == 0x1004) = true := by decide

/-- V171. -/
theorem test_beq_taken :
    (Vec.after (Vec.b |> Vec.setSr 0x2704 |> Vec.prog [0x6700,0x10]) fun t => t.pc == 0x1012) = true := by decide

/-- V172. -/
theorem test_bra_ff_68000 :
    (Vec.after (Vec.b |> Vec.prog [0x60FF]) fun t => Vec.frame t 0x1FF8 0x2700 0x1001 0xC) = true := by decide

/-- V173. -/
theorem test_dbeq_ends :
    (Vec.after (Vec.b |> Vec.setSr 0x2704 |> Vec.setD 1 5 |> Vec.prog [0x57C9,0xFFFE]) fun t => t.pc == 0x1004 &&
      t.d[1] == 5) = true := by decide

/-- V174. -/
theorem test_dbf_expires :
    (Vec.after (Vec.b |> Vec.setD 1 0x12340000 |> Vec.prog [0x51C9,0xFFFE]) fun t => t.pc == 0x1004 &&
      t.d[1] == 0x1234FFFF) = true := by decide

/-- V176. -/
theorem test_sf :
    (Vec.after (Vec.b |> Vec.setD 0 0xFFFFFFFF |> Vec.prog [0x51C0]) fun t => t.d[0] == 0xFFFFFF00) = true := by decide

/-- V177. -/
theorem test_jsr_a7 :
    (Vec.after (Vec.b |> Vec.prog [0x4E97]) fun t => t.pc == 0x2000 && t.isp == 0x1FFC &&
      Vec.long t 0x1FFC == 0x1002) = true := by decide

/-- V178. -/
theorem test_rts_odd :
    (Vec.after ({Vec.b with isp := 0x1FFC} |> Vec.putL 0x1FFC 0x1001 |> Vec.prog [0x4E75]) fun t =>
      Vec.frame t 0x1FF8 0x2700 0x1001 0xC) = true := by decide

/-- V179. -/
theorem test_rtd_68000 :
    (Vec.after (Vec.b |> Vec.prog [0x4E74,8]) fun t => Vec.frame t 0x1FF8 0x2700 0x1000 0x10) = true := by decide

/-- V180. -/
theorem test_tst :
    (Vec.after (Vec.b |> Vec.setSr 0x271F |> Vec.prog [0x4A00]) fun t => Vec.ccr t == 0x14) = true := by decide

/-- V190. -/
theorem test_andi_sr_to_user :
    (Vec.after (Vec.b |> Vec.prog [0x027C,0xDFFF]) fun t => t.sr == 0x0700 && t.getSP == 0x3000) = true := by decide

/-- V191. -/
theorem test_ori_sr_privilege :
    (Vec.after (Vec.b |> Vec.setSr 0 |> Vec.prog [0x007C,0x2000]) fun t => Vec.frame t 0x1FF8 0 0x1000 0x20 &&
      t.sr == 0x2000) = true := by decide

/-- V192. -/
theorem test_ori_ccr :
    (Vec.after (Vec.b |> Vec.setSr 0 |> Vec.prog [0x003C,0x1F]) fun t => t.sr == 0x1F) = true := by decide

/-- V193. -/
theorem test_andi_ccr :
    (Vec.after (Vec.b |> Vec.setSr 0x271F |> Vec.prog [0x023C,0]) fun t => t.sr == 0x2700) = true := by decide

/-- V194. -/
theorem test_move_to_ccr :
    (Vec.after (Vec.b |> Vec.prog [0x44FC,0xFFFF]) fun t => t.sr == 0x271F) = true := by decide

/-- V196. -/
theorem test_move_usp_privilege :
    (Vec.after (Vec.b |> Vec.setSr 0 |> Vec.prog [0x4E60]) fun t => Vec.frame t 0x1FF8 0 0x1000 0x20) = true := by decide

/-- V197. -/
theorem test_movec_vbr :
    (Vec.after (Vec.base .mc68010 |> Vec.setD 0 0x10000 |> Vec.prog [0x4E7B,0x801]) fun t => t.vbr == 0x10000) = true := by decide

/-- V198. -/
theorem test_reset_instruction :
    (Vec.after (Vec.b |> Vec.prog [0x4E70]) fun t => t.pc == 0x1002 && t.isp == 0x2000) = true := by decide

/-- V199. -/
theorem test_chk_above :
    (Vec.after (Vec.b |> Vec.setD 0 0xFFFF |> Vec.setSr 0x2702 |> Vec.prog [0x41BC,0xA]) fun t =>
      Vec.frame t 0x1FF8 0x270A 0x1004 0x18) = true := by decide

/-- V200. -/
theorem test_chk_in_range :
    (Vec.after (Vec.b |> Vec.setD 0 5 |> Vec.setSr 0x271F |> Vec.prog [0x41BC,0xA]) fun t => t.sr == 0x271F &&
      t.pc == 0x1004) = true := by decide

/-- V201. -/
theorem test_trapv_clear :
    (Vec.after (Vec.b |> Vec.prog [0x4E76]) fun t => t.pc == 0x1002) = true := by decide

/-- V202. -/
theorem test_trap_15 :
    (Vec.after (Vec.b |> Vec.prog [0x4E4F]) fun t => Vec.frame t 0x1FF8 0x2700 0x1002 0xBC) = true := by decide

/-- V211. -/
theorem test_privilege_entry :
    (Vec.after (Vec.b |> Vec.setSr 0 |> Vec.putL 0x20 0x4444 |> Vec.prog [0x4E72,0x2700]) fun t =>
      Vec.frame t 0x1FF8 0 0x1000 0x20 && t.pc == 0x4444 && t.isp == 0x1FF8 && t.sr == 0x2000 && t.usp == 0x3000) = true := by decide

/-- V213. -/
theorem test_trapv_format_2 :
    (Vec.after (Vec.base .mc68020 |> Vec.setSr 0x2702 |> Vec.prog [0x4E76]) fun t =>
      Vec.frame t 0x1FF4 0x2702 0x1002 0x201C && Vec.long t 0x1FFC == 0x1000 && t.isp == 0x1FF4) = true := by decide

/-- V216. -/
theorem test_vbr_vector :
    (Vec.after ({Vec.base .mc68010 with vbr := 0x10000} |> Vec.putL 0x10080 0x4444 |> Vec.prog [0x4E40]) fun t =>
      Vec.frame t 0x1FF8 0x2700 0x1002 0x80 && t.pc == 0x4444) = true := by decide

/-- V218. -/
theorem test_rte_format_error :
    (Vec.after ({Vec.b with isp := 0x1FF8} |> Vec.putW 0x1FF8 [0x2700,0,0x1234,0x1000] |> Vec.prog [0x4E73]) fun t =>
      Vec.frame t 0x1FF0 0x2700 0x1000 0x38) = true := by decide

/-- V219. -/
theorem test_rte_format_2 :
    (Vec.after ({Vec.base .mc68020 with isp := 0x1FF4} |> Vec.putW 0x1FF4 [0x2700,0,0x1004,0x2018,0,0x1000] |>
      Vec.prog [0x4E73]) fun t => t.sr == 0x2700 && t.pc == 0x1004 && t.isp == 0x2000) = true := by decide

/-- V220. -/
theorem test_frame_write_fails :
    (Vec.after ({Vec.b with cfg := {Vec.b.cfg with mem := {Vec.b.cfg.mem with holes := [⟨none,0x1FF8,0x1FFF,true,true⟩]}}} |>
      Vec.prog [0x4AFC]) fun t => t.run == .halted && t.isp == 0x2000 && t.pc == 0x1002 && t.sr == 0x2700) = true := by decide

/-- V221. -/
theorem test_odd_vector_halts :
    (Vec.after (Vec.b |> Vec.putL 0x10 0x1001 |> Vec.prog [0x4AFC]) fun t =>
      Vec.frame t 0x1FF8 0x2700 0x1000 0x10 && t.run == .halted && t.pc == 0x1001 && t.isp == 0x1FF8) = true := by decide

/-- V223. -/
theorem test_exception_on_master_stack :
    (Vec.after ({Vec.base .mc68020 with msp := 0x4000} |> Vec.setSr 0x3700 |> Vec.prog [0x4AFC]) fun t =>
      Vec.frame t 0x3FF8 0x3700 0x1000 0x10 && t.sr == 0x3700 && t.msp == 0x3FF8 && t.isp == 0x2000) = true := by decide

/-- V230. -/
theorem test_startup_does_nothing :
    (Vec.after ({Vec.b with run := .startup} |> Vec.prog [0x4E71]) fun t => t.pc == 0x1000) = true := by decide

/-- V232. -/
theorem test_reset_odd_pc :
    (let t := resetProcedure (Vec.b |> Vec.putL 0 0x2000 |> Vec.putL 4 0x1001); t.isp == 0x2000 &&
      t.pc == 0x1001 && t.run == .halted) = true := by decide

/-- V233. -/
theorem test_reset_bus_error :
    (let t := resetProcedure ({Vec.b with cfg := {Vec.b.cfg with mem := {Vec.b.cfg.mem with holes := [⟨none,0,3,true,true⟩]}}}); t.isp == 0 &&
      t.pc == 0 && t.run == .halted) = true := by decide

/-- V120. -/
theorem test_asl_b : Vec.shifts 0xE300 0x81 0 false 0x02 0b10011 = true := by decide

/-- V121. -/
theorem test_asl_b_sign : Vec.shifts 0xE300 0xC0 0 false 0x80 0b11001 = true := by decide

/-- V126. -/
theorem test_asr_b_full : Vec.shifts 0xE220 0x80 8 false 0xFF 0b11001 = true := by decide

/-- V129. -/
theorem test_lsr_b_8 : Vec.shifts 0xE228 0x80 8 false 0 0b10101 = true := by decide

/-- V131. -/
theorem test_lsl_w_16 : Vec.shifts 0xE368 0xFFFF 16 false 0 0b10101 = true := by decide

/-- V132. -/
theorem test_lsl_l_33 : Vec.shifts 0xE3A8 0xFFFFFFFF 33 true 0 0b00100 = true := by decide

/-- V135. -/
theorem test_rol_b_8 : Vec.shifts 0xE338 0x81 8 false 0x81 0b01001 = true := by decide

/-- V137. -/
theorem test_ror_b_16 : Vec.shifts 0xE238 0x81 16 false 0x81 0b01001 = true := by decide

/-- V136. -/
theorem test_rol_b_1 : Vec.shifts 0xE318 0x81 0 true 0x03 0b10001 = true := by decide

/-- V140. -/
theorem test_roxl_b_x : Vec.shifts 0xE330 0x80 9 true 0x80 0b11001 = true := by decide

/-- V142. -/
theorem test_roxl_w : Vec.shifts 0xE350 0 0 true 1 0 = true := by decide

/-- V143. -/
theorem test_roxr_w_17 : Vec.shifts 0xE270 0x8000 17 true 0x8000 0b11001 = true := by decide

/-- V141. -/
theorem test_roxr_b : Vec.shifts 0xE210 1 0 false 0 0b10101 = true := by decide

/-- V145. -/
theorem test_ror_w_zero : Vec.shifts 0xE260 0x8001 0 false 0x8001 0b01000 = true := by decide

/-- V146. -/
theorem test_swap : Vec.shifts 0x4840 0xFFFF 0 true 0xFFFF0000 0b11000 = true := by decide

/-- V160. -/
theorem test_abcd_99_99_1 : Vec.decimal 0xC101 0x99 0x99 true 0x99 true false = true := by decide

/-- V164. -/
theorem test_sbcd_borrow : Vec.decimal 0x8101 0x99 0 false 1 true false = true := by decide

/-- V167. -/
theorem test_sbcd_zero : Vec.decimal 0x8101 0x50 0x50 false 0 false true = true := by decide

/-- V168. -/
theorem test_nbcd : Vec.decimal 0x4800 0 0x99 false 1 true false = true := by decide

/-- V169. -/
theorem test_nbcd_zero : Vec.decimal 0x4800 0 0 false 0 false true = true := by decide

/-- R360, R368, by hand: lo = 15 + 10 = 25, which becomes 31; t = 31 + 128 = 0x9F, so c = 1 and t - 0xA0 = -1,
which is 0xFF modulo 256. -/
theorem test_abcd_invalid_digits : bcdAdd 0x0F 0x8A false = (0xFF, true) := by decide

/-- R192, D23: LEA writes no flag, so a failed fetch of its extension word leaves the flags; R457: the stacked PC is the
address of the instruction. -/
theorem test_fetch_fault_keeps_flags :
    (Vec.after ({ Vec.b with
        cfg := { Vec.b.cfg with mem := { Vec.b.cfg.mem with holes := [⟨none, 0x1002, 0x1003, true, true⟩] } } } |>
      Vec.setSr 0x271F |> Vec.prog [0x41F8]) fun t =>
      Vec.frame t 0x1FF8 0x271F 0x1000 0x08 && Vec.ccr t == 0x1F) = true := by decide

/-- R83: the same call may be answered otherwise the next time, so it is counted. -/
theorem test_own_call_counted :
    (({ Vec.b with cfg := { Vec.b.cfg with mem := { Vec.b.cfg.mem with own := [⟨none, 0x6000, 0x6FFF⟩] } } } : State).called
      5 0x5FFE 4).draws = Vec.b.draws + 1 := by decide

/-- A write that the host ignores succeeds and changes nothing. -/
theorem test_ignored_write :
    (Vec.after ({ Vec.b with cfg := { Vec.b.cfg with mem := { Vec.b.cfg.mem with rom := [⟨none, 0x6000, 0x6FFF⟩] } } } |>
      Vec.setA 0 0x6000 |> Vec.setD 0 0x1234 |> Vec.prog [0x3080]) fun t =>
      Vec.word t 0x6000 == 0 && t.pc == 0x1002) = true := by decide

/-! ## Witnesses: a concrete state and operands that meet the hypotheses of each statement -/

/-- A supervisor state on mc68010 with data in registers and at 0x3000. -/
def Wit.s : State :=
  Vec.base .mc68010 |> Vec.setD 0 0x10 |> Vec.setD 1 3 |> Vec.setD 2 0x99 |> Vec.setA 0 0x3000 |> Vec.setA 1 0x3010 |>
    Vec.putW 0x3000 [0x0012, 0x0034, 0x8001, 0x0008]

/-- The same in user mode. -/
def Wit.user : State := Wit.s |> Vec.setSr 0

/-- The same on mc68020, on the master stack. -/
def Wit.master : State := { Vec.base .mc68020 with msp := 0x5000, sr := 0x3700 }

/-- A state whose host denies 0x3000 to 0x3003 and the frame below 0x2000. -/
def Wit.holes : State :=
  { Wit.s with
    cfg := { Params.default with
      mem := { MemMap.plain with holes := [⟨none, 0x3000, 0x3003, true, true⟩, ⟨none, 0x1FF0, 0x1FFF, false, true⟩] } } }

/-- A state whose host answers 0x6000 to 0x6FFF on its own and ignores writes to 0x7000 to 0x7FFF. -/
def Wit.host : State :=
  { Wit.s with
    cfg := { Params.default with
      bkptPresent := true
      mem := { MemMap.plain with rom := [⟨none, 0x7000, 0x7FFF⟩], own := [⟨some 5, 0x6000, 0x6FFF⟩] } } }

/-- The next step is no BKPT with a callback. -/
def Wit.own (s : State) : Bool :=
  match s.fetched with
  | .ok (i, _) => !handsOver s i
  | .error _ => true

theorem Wit.ownStep_of {s : State} (h : Wit.own s = true) : s.ownStep := by
  intro i rest hf
  simpa [Wit.own, hf] using h

theorem test_wit_StackPointers :
    Wit.user.sr.getLsbD 13 = false ∧ Wit.s.sr.getLsbD 13 = true ∧ Wit.s.cfg.model ≠ .mc68020 ∧
    Wit.master.sr.getLsbD 13 = true ∧ Wit.master.cfg.model = .mc68020 ∧ Wit.master.sr.getLsbD 12 = true ∧
    (0x0000#16).getLsbD 13 = false ∧ (0x2000#16).getLsbD 13 = true ∧
    (0x2000#16).getLsbD 12 = Wit.s.sr.getLsbD 12 := by decide

theorem test_wit_inv : Wit.s.Inv ∧ Wit.user.Inv ∧ Wit.master.Inv :=
  ⟨⟨by decide, by decide⟩, ⟨by decide, by decide⟩, ⟨by decide, by decide⟩⟩

theorem test_wit_StatusRegister : Vec.b.cfg.model = .mc68000 ∧ Wit.s.cfg.model = .mc68010 ∧
    Wit.master.cfg.model = .mc68020 := by decide

theorem test_wit_MemoryReads :
    (0x3001 : Word).getLsbD 0 = true ∧ (0x3000 : Word).getLsbD 0 = false ∧
    Wit.holes.cfg.mem.accepts .read 5 0x3000 2 = false ∧ Wit.holes.cfg.mem.accepts .read 5 0x3001 1 = false ∧
    Wit.s.cfg.mem.accepts .read 5 0x3000 4 = true ∧ Wit.s.cfg.mem.accepts .read 5 0x3001 1 = true ∧
    Wit.holes.cfg.mem.answer .read 5 0x3000 2 = .refused ∧ Wit.holes.cfg.mem.answer .read 5 0x3001 1 = .refused ∧
    Wit.host.cfg.mem.answer .read 5 0x5FFE 4 = .own ∧ Wit.host.cfg.mem.answer .read 6 0x6000 2 = .served ∧
    Wit.holes.cfg.mem.accepts .read 6 0x3002 2 = false ∧ Wit.s.cfg.mem.accepts .read 6 0xFFFFFFFE 2 = true := by decide

theorem test_wit_fetch :
    Wit.s.fetchable Wit.s.pc = true ∧ Wit.s.fetchable (Wit.s.pc + 2) = true ∧
    ({ Wit.s with pc := 0x3000 } : State).fetchable 0x3001 = false ∧ Wit.holes.fetchable 0x3000 = false := by decide

theorem test_wit_MemoryWriteThenRead :
    Memory.wf Wit.s.mem ∧ Wit.s.cfg.mem.accepts .write 1 0x3000 4 = true ∧
    Wit.holes.cfg.mem.answer .write 5 0x3002 2 = .refused ∧ Wit.host.cfg.mem.answer .write 5 0x7000 2 = .ignored ∧
    Wit.host.cfg.mem.answer .write 5 0x6FFF 1 = .own ∧
    Wit.s.cfg.mem.accepts .write 1 0xFFFFFFFE 2 = true ∧ Wit.s.cfg.mem.accepts .write 1 0x3001 1 = true := by decide

theorem test_wit_AddressingModes :
    Wit.s.cfg.model ≠ .mc68020 ∧ Wit.master.cfg.model = .mc68020 ∧ Wit.master.fetchable Wit.master.pc = true := by decide

theorem test_wit_flags :
    Size.b.fits 0xFF = true ∧ Size.w.fits 0xFFFF = true ∧ Size.l.fits 0xFFFFFFFF = true ∧ Size.b.fits 0 = true := by decide

theorem test_wit_ShiftResults : 0 < 8 ∧ 0x81 < 2 ^ 8 ∧ 0 < 63 := by decide

theorem test_wit_DecimalArithmetic : validDecimal 0x99 = true ∧ validDecimal 0 = true := by decide

theorem test_wit_SignedDivisionLaw :
    (0xFFFF : Half) ≠ 0 ∧ (divSigned 0xFFFF8000 1).1 = -32768 ∧ (divSigned 7 2).1 = 3 := by decide

/-- A source, or a destination read and written, in memory and in a register: AluToRegister, AluToLocation, AddressResults,
Compares, UnaryResults, MultiplyAndDivide, Shifts (of memory), CheckBounds. -/
theorem test_wit_operands :
    Wit.s.started.eaReady (.postinc 0) .w = true ∧ Wit.s.started.operand (.postinc 0) .w = some 0x12 ∧
    (Wit.s.started.afterEA (.postinc 0) .w).canStore (Wit.s.started.eaLoc (.postinc 0) .w) .w = true ∧
    Wit.s.started.operand (.dreg 1) .l = some 3 ∧
    (Wit.s.started.afterEA (.dreg 1) .l).canStore (Wit.s.started.eaLoc (.dreg 1) .l) .l = true ∧
    Wit.s.started.operand (.predec 1) .b = some 0 ∧ Wit.s.started.operand (.imm 0) .w = some 0 := by decide

theorem test_wit_immediates :
    Wit.s.started.canFetch 2 = true ∧ (Wit.s.started.skip 2).eaReady (.disp 0 4) .l = true ∧
    (Wit.s.started.skip 2).operand (.disp 0 4) .l = some 0x80010008 ∧
    Wit.s.started.canFetch 1 = true ∧ (Wit.s.started.skip 1).operand (.ind 0) .b = some 0 ∧
    ((Wit.s.started.skip 2).afterEA (.disp 0 4) .l).canStore ((Wit.s.started.skip 2).eaLoc (.disp 0 4) .l) .l = true := by
  decide

theorem test_wit_cmpm :
    Wit.s.started.operand (.postinc 0) .w = some 0x12 ∧
    (Wit.s.started.afterEA (.postinc 0) .w).operand (.postinc 0) .w = some 0x34 := by decide

theorem test_wit_predec_pair :
    Wit.s.started.operand (.predec 1) .b = some 0 ∧
    (Wit.s.started.afterEA (.predec 1) .b).operand (.predec 1) .b = some 0 ∧
    ((Wit.s.started.afterEA (.predec 1) .b).afterEA (.predec 1) .b).canStore
      ((Wit.s.started.afterEA (.predec 1) .b).eaLoc (.predec 1) .b) .b = true := by decide

theorem test_wit_MultiplyAndDivide :
    Wit.s.started.operand (.dreg 1) .w = some 3 ∧
    Int.tdiv (Wit.s.getD 0).toInt ((3 : Word).setWidth 16).toInt = 5 ∧ (Wit.s.getD 0).toNat / 3 ≤ 0xFFFF := by decide

theorem test_wit_DivideAbnormal :
    let big := Wit.s.setD 0 0x10000
    let one := big.setD 1 1
    one.started.operand (.dreg 1) .w = some 1 ∧
    Int.tdiv (one.getD 0).toInt ((1 : Word).setWidth 16).toInt > 32767 ∧ (one.getD 0).toNat / 1 > 0xFFFF ∧
    one.cfg.divOverflow = .unchanged ∧
    ({ one with cfg := { one.cfg with divOverflow := .silicon } } : State).cfg.divOverflow = .silicon ∧
    (Wit.s.setD 1 0).started.operand (.dreg 1) .w = some 0 := by decide

theorem test_wit_BitInstructions :
    Wit.s.started.operand (.ind 0) .b = some 0 ∧ (Wit.s.started.skip 1).operand (.dreg 1) .l = some 3 ∧
    ((Wit.s.started.skip 1).afterEA (.dreg 1) .l).canStore (.dreg 1) .l = true := by decide

theorem test_wit_Move :
    Wit.s.started.eaReady (.absW 0x3000) .w = true ∧ Wit.s.started.operand (.absW 0x3000) .w = some 0x12 ∧
    (Wit.s.started.afterEA (.absW 0x3000) .w).eaReady (.absL 0x3010) .w = true ∧
    ((Wit.s.started.afterEA (.absW 0x3000) .w).afterEA (.absL 0x3010) .w).canStore (.mem 5 0x3010) .w = true := by decide

theorem test_wit_MovemToMemory :
    (Wit.s.started.skip 1).eaReady (.ind 0) .w = true ∧
    (maskRegs 0x0103).length = 3 ∧ (maskRegsPredec 0x80C0).length = 3 ∧
    (([0x3000, 0x3002, 0x3004] : List Word).all fun a =>
      ((Wit.s.started.skip 1).afterEA (.ind 0) .w).canStore (.mem 5 a) .w) = true ∧
    (([0x300C, 0x3008, 0x3004] : List Word).all fun a => (Wit.s.started.skip 1).canStore (.mem 5 a) .l) = true := by
  decide

theorem test_wit_MovemFromMemory :
    ([0x12, 0x34] : List Word).length = (maskRegs 0x0101).length ∧
    (Wit.s.started.skip 1).valueAt (.mem 5 0x3000) .w = some 0x12 ∧
    (Wit.s.started.skip 1).valueAt (.mem 5 0x3002) .w = some 0x34 ∧
    (Wit.s.started.skip 1).eaReady (.ind 0) .w = true := by decide

theorem test_wit_MovePeripheral :
    (([0x3001, 0x3003, 0x3005, 0x3007] : List Word).all fun a =>
      (Wit.s.started.skip 1).canStore (.mem 5 a) .b && ((Wit.s.started.skip 1).valueAt (.mem 5 a) .b).isSome) = true := by
  decide

theorem test_wit_stack :
    Wit.s.started.eaReady (.disp 0 4) .l = true ∧ (Wit.s.started.afterEA (.disp 0 4) .l).canPush = true ∧
    (Wit.s.started.skip 1).canPush = true ∧ Wit.s.started.valueAt (.mem 5 (Wit.s.getA 0)) .l = some 0x120034 ∧
    Wit.s.started.valueAt (.mem 5 Wit.s.getSP) .l = some 0 ∧ Wit.s.started.valueAt (.mem 5 Wit.s.getSP) .w = some 0 ∧
    Wit.s.started.valueAt (.mem 5 (Wit.s.getSP + 2)) .l = some 0 := by decide

theorem test_wit_Branches :
    Wit.s.started.canFetch (branchWords (.word 4)) = true ∧ Wit.s.started.canFetch (branchWords (.short 4)) = true ∧
    (Wit.s.started.skip 1).canPush = true ∧ Wit.s.started.eaReady (.predec 0) .b = true ∧
    (Wit.s.started.afterEA (.predec 0) .b).canStore (Wit.s.started.eaLoc (.predec 0) .b) .b = true := by decide

theorem test_wit_StatusInstructions :
    Wit.s.supervisor = true ∧ Wit.s.started.canFetch 1 = true ∧ Wit.s.cfg.model ≠ .mc68000 ∧
    Wit.s.started.eaReady (.ind 0) .w = true ∧ Wit.s.started.operand (.ind 0) .w = some 0x12 ∧
    (Wit.s.started.afterEA (.ind 0) .w).canStore (Wit.s.started.eaLoc (.ind 0) .w) .w = true := by decide

theorem test_wit_ControlRegisterMoves :
    Wit.s.supervisor = true ∧ Wit.s.cfg.model ≠ .mc68000 ∧ controlRegOf 0x801 = some .vbr ∧
    ControlReg.vbr.existsOn .mc68010 = true ∧ controlRegOf 0x002 = some .cacr ∧
    ControlReg.cacr.existsOn .mc68010 = false ∧ controlRegOf 0x003 = none := by decide

theorem test_wit_MachineControl :
    let s := Vec.base .mc68010 |> Vec.putW 0x2000 [0x2700, 0, 0x1004, 0x2018]
    let t := Vec.base .mc68010 |> Vec.putW 0x2000 [0x2700, 0, 0x1004, 0x1000]
    s.supervisor = true ∧ s.started.canFetch 1 = true ∧ s.started.valueAt (.mem 5 s.getSP) .w = some 0x2700 ∧
    s.started.valueAt (.mem 5 (s.getSP + 2)) .l = some 0x1004 ∧
    s.started.valueAt (.mem 5 (s.getSP + 6)) .w = some 0x2018 ∧ 0x2018 / 4096 = 2 ∧
    t.started.valueAt (.mem 5 (t.getSP + 6)) .w = some 0x1000 ∧
    Wit.s.started.valueAt (.mem 5 (Wit.s.getSP + 6)) .w = some 0 := by decide

theorem test_wit_MoveSpace :
    Wit.s.supervisor = true ∧ Wit.s.cfg.model ≠ .mc68000 ∧ Wit.s.started.canFetch 1 = true ∧
    (Wit.s.started.skip 1).eaReady (.postinc 0) .w = true ∧
    ((Wit.s.started.skip 1).afterEA (.postinc 0) .w).canStore (.mem Wit.s.dfc 0x3000) .w = true ∧
    ((Wit.s.started.skip 1).afterEA (.postinc 0) .w).valueAt (.mem Wit.s.sfc 0x3000) .w = some 0x12 := by decide

theorem test_wit_CheckBounds :
    Wit.s.started.operand (.ind 0) .w = some 0x12 ∧ (0x10#16).toInt ≤ (0x12#16).toInt ∧
    (0x8000#16).toInt < 0 ∧ (0x99#16).toInt > (0x12#16).toInt ∧ (0x12#16).toInt ≤ (0x12#16).toInt := by decide

theorem test_wit_Breakpoint :
    Wit.s.cfg.bkptPresent = false ∧
    ({ Wit.s with cfg := { Wit.s.cfg with bkptPresent := true } } : State).cfg.bkptPresent = true := by decide

theorem test_wit_ModelRows :
    mc68020Row (.extbL 0) = some "EXTB.L" ∧ Wit.master.cfg.model = .mc68020 ∧ Wit.s.cfg.model ≠ .mc68020 ∧
    Wit.s.started.canPush = true ∧ Vec.b.cfg.model = .mc68000 ∧ (Instr.rtd 0).onModel .mc68000 = false ∧
    (Instr.rtd 0).onModel .mc68010 = true := by decide

theorem test_wit_ExceptionDelivery :
    let s := Wit.master |> Vec.putL 0x18 0x4000
    let a := s.frameBase .chkException
    let t := deliver .chkException .execute 0x1000 s
    a = 0x4FF4 ∧ Memory.wf s.mem ∧ odd s.entered.getSP = false ∧ Exc.chkException.format s.cfg.model = 2 ∧
    s.cfg.mem.accepts .write 5 a 2 = true ∧ s.cfg.mem.accepts .write 5 (a + 8) 4 = true ∧
    s.vbrEff + 24 = 0x18 ∧ odd (0x18 : Word) = false ∧ t.bytesAt 5 0x18 4 = 0x4000 ∧
    s.cfg.mem.accepts .read 6 0x4000 2 = true := by decide

theorem test_wit_DoubleFault :
    let badStack := { Wit.s with isp := 0x2001 }
    let badVector := { Wit.s with vbr := 1 }
    let badHandler := Wit.s |> Vec.putL 0x10 0x1001
    odd badStack.entered.getSP = true ∧ odd Wit.holes.entered.getSP = false ∧
    (Wit.holes.framed .illegalInstruction .execute 0x1000).1 = false ∧
    (Wit.s.framed .illegalInstruction .execute 0x1000).1 = true ∧ odd (badVector.vbrEff + 16) = true ∧
    (badHandler.framed .illegalInstruction .execute 0x1000).2.memGet 5 0x10 4 = some 0x1001 ∧
    badHandler.fetchWordAt 0x1001 = .error .addressError ∧ Wit.holes.memGet 5 0x3000 4 = none := by decide

/-- A word at an odd address, a refused long, a push that is refused, and an extension word that cannot be fetched. -/
theorem test_wit_AccessFaults :
    let i := Instr.tst .w (.ind 0)
    let s := Wit.s.setA 0 0x3001
    i.wf = true ∧ i.onModel s.cfg.model = true ∧ Memory.wf s.mem ∧ s.started.canFetch ((encode i).length - 1) = true ∧
    firstAccess s i = some (.read, 5, 0x3001, 2) ∧ odd (0x3001 : Word) = true ∧
    firstAccess Wit.holes (.moveL (.ind 0) (.dreg 0)) = some (.read, 5, 0x3000, 4) ∧
    Wit.holes.cfg.mem.answer .read 5 0x3000 4 = .refused ∧
    firstAccess Wit.holes (.pea (.ind 0)) = some (.write, 5, 0x1FFC, 4) ∧
    Wit.holes.cfg.mem.answer .write 5 0x1FFC 4 = .refused ∧
    1 < (encode (.lea 0 (.absW 4))).length ∧
    ({ Wit.holes with pc := 0x2FFE } : State).fetchWordAt 0x3000 = .error .busError := by decide

theorem test_wit_ExceptionReturn :
    let s := Wit.user |> Vec.putL 0x10 0x4000 |> Vec.putW 0x4000 [0x4E73]
    let t := deliver .illegalInstruction .execute 0x1000 s
    Memory.wf s.mem ∧ s.sr &&& s.cfg.model.srMask = s.sr ∧ s.plainHost ∧ s.run = .running ∧
    odd s.entered.getSP = false ∧ odd (s.vbrEff + 16) = false ∧ odd (t.bytesAt 5 0x10 4) = false ∧
    t.opcode = 0x4E73#16 := by decide

theorem test_wit_PrivilegeViolation :
    privilegedRow .mc68010 (.moveFromSr (.dreg 0)) = true ∧ privilegedRow .mc68000 (.stop 0) = true ∧
    (Instr.moveFromSr (.dreg 0)).onModel .mc68010 = true ∧ Wit.user.sr.getLsbD 13 = false := by decide

theorem test_wit_StepRunsDecoded :
    let nop := Wit.s |> Vec.prog [0x4E71]
    let bad := Wit.s |> Vec.prog [0x4AFB]
    ({ Wit.s with run := .stopped } : State).run ≠ .running ∧ (0x8000#16).getLsbD 15 = true ∧ nop.run = .running ∧
    nop.sr.getLsbD 15 = false ∧ nop.sr.getLsbD 14 = false ∧
    (match decode nop.cfg.model nop.instrWords with | .ok (.nop, _) => true | _ => false) = true ∧
    (match decode bad.cfg.model bad.instrWords with | .error _ => true | _ => false) = true ∧
    nop.fetchable nop.pc = true ∧ ({ nop with pc := 0x1001 } : State).fetchable 0x1001 = false := by decide

theorem test_wit_StepRunsEncoded :
    let i := Instr.moveL (.imm 0x12345678) (.absL 0x3000)
    let s := Wit.s.placeWords (encode i)
    i.wf = true ∧ i.onModel s.cfg.model = true ∧ s.run = .running ∧ s.traced = false ∧
    encode i = 0x23FC :: [0x1234, 0x5678, 0x0000, 0x3000] ∧ s.opcode = 0x23FC ∧
    s.instrWords = [0x23FC, 0x1234, 0x5678, 0x0000, 0x3000] ∧
    (([2, 4, 6, 8] : List Word).all fun k => s.fetchable (s.pc + k)) = true := by decide

/-- RunTransitions, PrefetchCoherent, StepKeepsInvariant: a running core whose step has a next state. -/
theorem test_wit_step :
    (∃ t, step (Wit.s |> Vec.prog [0x4E71]) = .next t) ∧ (∃ t, step (Wit.s |> Vec.prog [0x4E72, 0x2000]) = .next t) ∧
    (Wit.s |> Vec.prog [0x4E71]).run = .running ∧ (Wit.host |> Vec.prog [0x4E71]).ownStep ∧
    Vec.after (Wit.s |> Vec.prog [0x4E71]) (fun t => t.run == .running) = true ∧
    Vec.after (Wit.s |> Vec.prog [0x4E72, 0xFFFF]) (fun t => t.run == .finished) = true ∧
    Vec.after ({ Wit.s with isp := 0x2001 } |> Vec.prog [0x4AFC]) (fun t => t.run == .halted) = true :=
  ⟨Vec.exists_next (by decide), Vec.exists_next (by decide), by decide, Wit.ownStep_of (by decide), by decide,
    by decide, by decide⟩

theorem test_wit_refusals :
    Vec.refusal (Wit.s |> Vec.setSr 0xA700 |> Vec.prog [0x4E71]) = some .trace ∧
    Vec.refusal (Wit.master |> Vec.prog [0x49C0]) = some (.mc68020Only "EXTB.L") := by decide

theorem test_wit_UserModeIsolation :
    Wit.user.supervisor = false ∧ (Wit.user |> Vec.prog [0x4E71]).ownStep ∧ (∃ t, step (Wit.user |> Vec.prog [0x4E71]) = .next t) ∧
    Vec.after (Wit.user |> Vec.prog [0x4E71]) (fun t => !t.supervisor) = true ∧
    Vec.after (Wit.user |> Vec.prog [0x4E40]) (fun t => t.supervisor) = true :=
  ⟨by decide, Wit.ownStep_of (by decide), Vec.exists_next (by decide), by decide, by decide⟩

theorem test_wit_frames :
    let i := Instr.addToMem .w 1 (.postinc 0)
    i.wf = true ∧ Memory.wf Wit.s.mem ∧ handsOver Wit.s i = false ∧ Vec.goes (exec i Wit.s) = true ∧
    instrWrites Wit.s i = [.a 0, .mem 5 0x3000 2] ∧ flagMask i = 31 := by decide

theorem test_wit_ResetProcedure :
    let s := Wit.s |> Vec.putL 0 0x2000 |> Vec.putL 4 0x1000
    s.memGet 6 0 4 = some 0x2000 ∧ (s.called 6 0 4).memGet 6 4 4 = some 0x1000 ∧
    (s.memGet 6 0x1000 2).isSome = true ∧ s.plainHost ∧
    ({ Wit.holes with cfg := { Wit.holes.cfg with mem := { MemMap.plain with holes := [⟨none, 0, 3, true, true⟩] } } } :
      State).memGet 6 0 4 = none := by decide

theorem test_wit_FirstStepAfterReset :
    let t := resetProcedure (Wit.s |> Vec.putL 0 0x2000 |> Vec.putL 4 0x1000 |> Vec.putW 0x1000 [0x4E71])
    t.run = .running ∧ t.opcode = 0x4E71#16 ∧ t.fetchable (t.pc + 2) = true := by decide

theorem test_wit_DecodeEncode :
    (Instr.lea 1 (.index 2 ⟨true, 3, true, 0, false, 0x80⟩)).wf = true ∧
    (Instr.lea 1 (.index 2 ⟨true, 3, true, 0, false, 0x80⟩)).onModel .mc68020 = true := by decide

end Sys2Proof.Tests
end

section
/-! SUPPORT. The status register and the stack pointers (R33, R34, R39 to R41): which stack pointer A7 names after a
write of the status word, and what such a write leaves. -/

namespace Sys2Proof.Machine

/-! ## The stack pointer that A7 names (R33) -/

theorem Model.is20_iff {m : Model} : m.is20 = true ↔ m = .mc68020 := by cases m <;> simp [Model.is20]

theorem State.getA_seven (s : State) : s.getA 7 = s.getSP := rfl

theorem State.setA_seven (s : State) (v : Word) : s.setA 7 v = s.setSP v := rfl

theorem State.activeStack_of_user {s : State} (h : s.sr.getLsbD 13 = false) : s.activeStack = .usp := by
  simp only [State.activeStack, State.supervisor, h, Bool.false_eq_true, if_false]

theorem State.activeStack_of_master {s : State} (h : s.sr.getLsbD 13 = true) (hm : s.cfg.model = .mc68020)
    (hb : s.sr.getLsbD 12 = true) : s.activeStack = .msp := by
  simp [State.activeStack, State.supervisor, State.master, h, hb, Model.is20_iff.2 hm]

theorem State.activeStack_of_interrupt {s : State} (h : s.sr.getLsbD 13 = true)
    (hm : ¬ (s.cfg.model = .mc68020 ∧ s.sr.getLsbD 12 = true)) : s.activeStack = .isp := by
  simpa [State.activeStack, State.supervisor, State.master, h, Model.is20_iff] using hm

/-- In supervisor mode A7 is not the user stack pointer. -/
theorem State.activeStack_ne_usp {s : State} (h : s.sr.getLsbD 13 = true) : s.activeStack ≠ .usp := by
  simp only [State.activeStack, State.supervisor, h, if_true]
  split <;> decide

theorem State.getSP_of_usp {s : State} (h : s.activeStack = .usp) : s.getSP = s.usp := by simp [State.getSP, h]

theorem State.setSP_of_usp {s : State} (h : s.activeStack = .usp) (v : Word) : s.setSP v = { s with usp := v } := by
  simp [State.setSP, h]

/-- In supervisor mode A7 depends on ISP, MSP and the selection alone. -/
theorem State.getSP_congr_supervisor {s t : State} (h : s.sr.getLsbD 13 = true) (hs : t.activeStack = s.activeStack)
    (hi : t.isp = s.isp) (hm : t.msp = s.msp) : t.getSP = s.getSP := by
  have hne := State.activeStack_ne_usp h
  cases ha : s.activeStack with
  | usp => exact absurd ha hne
  | isp => simp [State.getSP, hs, ha, hi]
  | msp => simp [State.getSP, hs, ha, hm]

/-! ## Writes of the status word (R39 to R41) -/

/-- Every model has the bit S (R39). -/
theorem Model.srMask_supervisor (m : Model) : m.srMask.getLsbD 13 = true := by cases m <;> decide

/-- The bit M exists on mc68020 (R39). -/
theorem Model.srMask_master {m : Model} (h : m.is20 = true) : m.srMask.getLsbD 12 = true := by
  rw [Model.is20_iff.1 h]; decide

theorem State.setSR_supervisor (s : State) (v : Half) : (s.setSR v).sr.getLsbD 13 = v.getLsbD 13 := by
  rw [State.setSR_sr, BitVec.getLsbD_and, Model.srMask_supervisor, Bool.and_true]

/-- A write of the status word selects the stack pointer by its bits 13 and 12. -/
theorem State.activeStack_setSR (s : State) {t : State} {v : Half} (hm : t.cfg = s.cfg)
    (h13 : v.getLsbD 13 = t.sr.getLsbD 13) (h12 : v.getLsbD 12 = t.sr.getLsbD 12) :
    (s.setSR v).activeStack = t.activeStack := by
  have hs : (s.setSR v).supervisor = t.supervisor := (s.setSR_supervisor v).trans h13
  have h20 : (s.cfg.model.is20 && (s.setSR v).master) = (s.cfg.model.is20 && t.master) := by
    cases h : s.cfg.model.is20 with
    | false => rfl
    | true => simp only [State.master, State.setSR_sr, BitVec.getLsbD_and, Model.srMask_master h, h12, Bool.and_true]
  simp only [State.activeStack, hs, State.setSR_cfg, hm, h20]

theorem State.getLsbD_getCCR (s : State) {i : Nat} (hi : i < 8) : s.getCCR.getLsbD i = s.sr.getLsbD i := by
  simp only [State.getCCR, BitVec.getLsbD_setWidth, hi, decide_true, Bool.true_and]

theorem State.setCCR_sr (s : State) (v : Byte) :
    (s.setCCR v).sr = (s.sr &&& 0xFFE0#16) ||| (v.setWidth 16 &&& 0x001F#16) := rfl

theorem State.getLsbD_setCCR_low (s : State) (v : Byte) {i : Nat} (hi : i < 5) :
    (s.setCCR v).sr.getLsbD i = v.getLsbD i := by
  rw [State.setCCR_sr]
  interval_cases i <;> simp

theorem State.getLsbD_setCCR_high (s : State) (v : Byte) {i : Nat} (hi : 5 ≤ i) :
    (s.setCCR v).sr.getLsbD i = s.sr.getLsbD i := by
  rw [State.setCCR_sr]
  rcases Nat.lt_or_ge i 16 with h | h
  · interval_cases i <;> simp
  · simp [BitVec.getLsbD_of_ge _ _ h]

/-- Setting the CCR keeps the privilege and the stack selection. -/
theorem State.activeStack_setCCR (s : State) (v : Byte) : (s.setCCR v).activeStack = s.activeStack := by
  have hs : (s.setCCR v).supervisor = s.supervisor := s.getLsbD_setCCR_high v (by decide)
  have hm : (s.setCCR v).master = s.master := s.getLsbD_setCCR_high v (by decide)
  simp only [State.activeStack, hs, hm, State.setCCR_cfg]

/-- Under the invariant bits 7:5 of the status word are 0 on every model (R39). -/
theorem State.Inv.sr_low {s : State} (h : s.Inv) {i : Nat} (h5 : 5 ≤ i) (h8 : i < 8) : s.sr.getLsbD i = false := by
  have hmask : s.cfg.model.srMask.getLsbD i = false := by
    cases s.cfg.model <;> interval_cases i <;> decide
  rw [← h.sr_masked, BitVec.getLsbD_and, hmask, Bool.and_false]

/-- Settles O1: A7 is read and written through the selection of R33, which a write of SR sets from its bits 13 and 12,
while the write leaves the three stack pointers alone (R34). -/
theorem stackPointers : Obligations.StackPointers := by
  unfold Obligations.StackPointers
  refine ⟨fun s v => ⟨fun h => ?_, fun h hm hb => ?_, fun h hm => ?_⟩, fun s user super v h hu hs hb => ?_⟩
  · simp only [State.getA_seven, State.setA_seven, State.getSP, State.setSP, State.activeStack_of_user h, and_self]
  · simp only [State.getA_seven, State.setA_seven, State.getSP, State.setSP, State.activeStack_of_master h hm hb,
      and_self]
  · simp only [State.getA_seven, State.setA_seven, State.getSP, State.setSP, State.activeStack_of_interrupt h hm,
      and_self]
  · have inUser : ∀ t : State, (t.setSR user).activeStack = .usp := fun t =>
      State.activeStack_of_user ((t.setSR_supervisor user).trans hu)
    have back : ∀ t : State, t.cfg = s.cfg → (t.setSR super).activeStack = s.activeStack := fun t ht =>
      State.activeStack_setSR t ht.symm (hs.trans h.symm) hb
    have write : (s.setSR user).setA 7 v = { s.setSR user with usp := v } := State.setSP_of_usp (inUser s) v
    refine ⟨State.getSP_of_usp (inUser s), ?_, ?_, ?_⟩
    · exact State.getSP_congr_supervisor h (back _ rfl) rfl rfl
    · rw [write]
      exact State.getSP_congr_supervisor h (back _ rfl) rfl rfl
    · rw [write]
      exact State.getSP_of_usp (inUser _)

/-- Settles O2: the masks of R39 by the model, and the bits of R41 one by one. -/
theorem statusRegister : Obligations.StatusRegister := by
  unfold Obligations.StatusRegister
  refine ⟨fun s v => ⟨fun h => ?_, fun h => ?_, fun h => ?_⟩,
    fun s v hs => ⟨fun i hi => ?_, fun i hi => ?_, ?_, ?_, ?_, ?_⟩⟩
  · rw [State.setSR, h]; rfl
  · rw [State.setSR, h]; rfl
  · rw [State.setSR, h]; rfl
  · exact s.getLsbD_getCCR hi
  · rcases Nat.lt_or_ge i 8 with h8 | h8
    · rw [State.getLsbD_getCCR _ h8, hs.sr_low hi h8]
    · exact BitVec.getLsbD_of_ge _ _ h8
  · exact fun i hi => s.getLsbD_setCCR_low v hi
  · exact fun i hi => s.getLsbD_setCCR_high v hi
  · exact ⟨_, rfl⟩
  · exact s.activeStack_setCCR v

end Sys2Proof.Machine
end

section
/-! SUPPORT. Which predicates of the state an instruction's rule keeps: `Keeps` for one operation, with one lemma for
each way operations are put together, and `Stable` for a predicate that survives every write an unprivileged rule can
make. The proof that a rule keeps a stable predicate has the shape of the rule itself. -/

namespace Sys2Proof.Machine

/-- The state in which an operation ends, well or not. -/
def endState {α : Type} : EStateM.Result Stop State α → State
  | .ok _ t => t
  | .error _ t => t

/-- An operation keeps a predicate of the state, however it ends. -/
def Keeps {α : Type} (P : State → Prop) (m : Op α) : Prop := ∀ s, P s → P (endState (m s))

/-- A predicate that survives each kind of write an unprivileged rule makes (R128): a register, `pc`, the CCR, a byte of
memory, and the model's own count of free values. -/
structure Stable (P : State → Prop) : Prop where
  setD : ∀ s n v, P s → P (s.setD n v)
  setA : ∀ s n v, P s → P (s.setA n v)
  setPC : ∀ s v, P s → P { s with pc := v }
  setCCR : ∀ s v, P s → P (s.setCCR v)
  putByte : ∀ s fc a b, P s → P (s.putByte fc a b)
  setDraws : ∀ s k, P s → P { s with draws := k }

/-! ## Putting operations together -/

namespace Keeps

variable {P : State → Prop} {α β : Type}

theorem pure {a : α} : Keeps P (Pure.pure a : Op α) := fun _ hs => hs

theorem raise {e : Exc} : Keeps P (Machine.raise e : Op α) := fun _ hs => hs

theorem refuse {r : Refusal} : Keeps P (Machine.refuse r : Op α) := fun _ hs => hs

theorem bind {m : Op α} {k : α → Op β} (hm : Keeps P m) (hk : ∀ a, Keeps P (k a)) : Keeps P (m >>= k) := by
  intro s hs
  have ht := hm s hs
  cases h : m s with
  | ok a t =>
    rw [bind_ok h]
    rw [h] at ht
    exact hk a t ht
  | error e t =>
    rw [bind_error h]
    rw [h] at ht
    exact ht

theorem ite {c : Prop} [Decidable c] {m n : Op α} (hm : Keeps P m) (hn : Keeps P n) :
    Keeps P (if c then m else n) := by
  split
  · exact hm
  · exact hn

/-! ## Operations that leave the state alone -/

theorem readD {n : RegNo} : Keeps P (Machine.readD n) := fun _ hs => hs
theorem readDSized {sz : Size} {n : RegNo} : Keeps P (Machine.readDSized sz n) := fun _ hs => hs
theorem readA {n : RegNo} : Keeps P (Machine.readA n) := fun _ hs => hs
theorem readSP : Keeps P Machine.readSP := fun _ hs => hs
theorem readPC : Keeps P Machine.readPC := fun _ hs => hs
theorem readFlags : Keeps P Machine.readFlags := fun _ hs => hs
theorem readSR : Keeps P Machine.readSR := fun _ hs => hs
theorem readCCR : Keeps P Machine.readCCR := fun _ hs => hs
theorem readModel : Keeps P Machine.readModel := fun _ hs => hs
theorem readCond {c : Cond} : Keeps P (Machine.readCond c) := fun _ hs => hs
theorem readG {r : GReg} : Keeps P (Machine.readG r) := by cases r <;> exact fun _ hs => hs

theorem privileged : Keeps P Machine.privileged := by
  intro s hs
  unfold Machine.privileged
  split <;> exact hs

theorem from68010 : Keeps P Machine.from68010 := by
  intro s hs
  unfold Machine.from68010
  split <;> exact hs

theorem only68020 {name : String} : Keeps P (Machine.only68020 name) := by
  intro s hs
  unfold Machine.only68020
  split <;> exact hs

theorem checkBrief {ea : Ea} : Keeps P (Machine.checkBrief ea) := by
  intro s hs
  unfold Machine.checkBrief
  split <;> exact hs

theorem refuse32 {d : BranchDisp} : Keeps P (Machine.refuse32 d) := .bind .readModel fun _ => .ite .refuse .pure

theorem readCount {c : ShiftCount} : Keeps P (Machine.readCount c) := by
  cases c with
  | quick q => exact .pure
  | reg n => exact .bind .readD fun _ => .pure

theorem storedValue {sz : Size} {an : RegNo} {count : Nat} {r : GReg} :
    Keeps P (Machine.storedValue sz an count r) := .bind .readG fun _ => .bind .readModel fun _ => .pure

theorem dynamicBit {dn : RegNo} {k : Nat → Op Unit} (hk : ∀ n, Keeps P (k n)) : Keeps P (Machine.dynamicBit dn k) :=
  .bind .readD fun _ => hk _

end Keeps

/-! ## What a stable predicate survives -/

namespace Stable

variable {P : State → Prop} (hP : Stable P)
include hP

theorem called {s : State} (fc : FC) (a : Word) (n : Nat) (hs : P s) : P (s.called fc a n) := by
  unfold State.called
  split
  · exact hP.setDraws s _ hs
  · exact hs

theorem afterFetch {s : State} (a : Word) (hs : P s) : P (s.afterFetch a) := by
  unfold State.afterFetch
  split
  · exact hs
  · exact hP.called _ a 2 hs

theorem putBytes {s : State} (fc : FC) (a v : Word) (n : Nat) (hs : P s) : P (s.putBytes fc a v n) := by
  induction n generalizing s a with
  | zero => exact hs
  | succ n ih => exact ih _ (hP.putByte s fc a _ hs)

theorem drawBytes {s : State} (fc : FC) (a : Word) (n : Nat) (hs : P s) : P (s.drawBytes fc a n) := by
  induction n generalizing s a with
  | zero => exact hs
  | succ n ih => exact ih _ (hP.setDraws _ _ (hP.putByte s fc a _ hs))

theorem memPut {s t : State} {fc : FC} {a v : Word} {n : Nat} (hs : P s) (h : s.memPut fc a n v = some t) : P t := by
  rcases State.memPut_cases h with rfl | rfl
  · exact hP.putBytes fc a v n hs
  · exact hP.called fc a n hs

theorem sideEffect {s : State} (ea : Ea) (sz : Size) (hs : P s) : P (s.sideEffect ea sz) := by
  unfold State.sideEffect
  split
  · exact hP.setA s _ _ hs
  · exact hP.setA s _ _ hs
  · exact hs

/-! ## The operations shared by the rules -/

theorem writeD {n : RegNo} {v : Word} : Keeps P (Machine.writeD n v) := fun s => hP.setD s n v
theorem writeDSized {sz : Size} {n : RegNo} {v : Word} : Keeps P (Machine.writeDSized sz n v) := fun s => hP.setD s n _
theorem writeA {n : RegNo} {v : Word} : Keeps P (Machine.writeA n v) := fun s => hP.setA s n v
theorem writeSP {v : Word} : Keeps P (Machine.writeSP v) := fun s => hP.setA s 7 v
theorem writePC {v : Word} : Keeps P (Machine.writePC v) := fun s => hP.setPC s v
theorem writeFlags {f : Ccr} : Keeps P (Machine.writeFlags f) := fun s => hP.setCCR s f.byte
theorem writeCCR {v : Byte} : Keeps P (Machine.writeCCR v) := fun s => hP.setCCR s v
theorem modifyFlags {g : Ccr → Ccr} : Keeps P (Machine.modifyFlags g) := .bind .readFlags fun _ => hP.writeFlags

theorem writeG {r : GReg} {v : Word} : Keeps P (Machine.writeG r v) := by
  cases r with
  | d n => exact hP.writeD
  | a n => exact hP.writeA

theorem undefinedFlag {old : Bool} : Keeps P (Machine.undefinedFlag old) := by
  intro s hs
  unfold Machine.undefinedFlag
  split
  · exact hs
  · exact hP.setDraws s _ hs

theorem memReadFC {fc : FC} {a : Word} {n : Nat} : Keeps P (Machine.memReadFC fc a n) := by
  intro s hs
  unfold Machine.memReadFC
  split
  · exact hs
  · split <;> exact hP.called fc a n hs

theorem memWriteFC {fc : FC} {a v : Word} {n : Nat} : Keeps P (Machine.memWriteFC fc a n v) := by
  intro s hs
  unfold Machine.memWriteFC
  split
  · exact hs
  · split
    · exact hP.called fc a n hs
    · rename_i h
      exact hP.memPut hs h

theorem memRead {a : Word} {n : Nat} : Keeps P (Machine.memRead a n) := fun s => hP.memReadFC s

theorem memWrite {a v : Word} {n : Nat} : Keeps P (Machine.memWrite a n v) := fun s => hP.memWriteFC s

theorem fetchExt : Keeps P Machine.fetchExt := by
  intro s hs
  have hf := hP.afterFetch s.pc hs
  unfold Machine.fetchExt
  split
  · exact hP.setPC _ _ hf
  · exact hP.setDraws _ _ hf

theorem takeExt {n : Nat} : Keeps P (Machine.takeExt n) := by
  induction n with
  | zero => exact .pure
  | succ n ih => exact .bind hP.fetchExt fun _ => ih

theorem applyEA {ea : Ea} {sz : Size} {base : Word} : Keeps P (Machine.applyEA ea sz base) :=
  fun _ => hP.sideEffect ea sz

theorem calcEA {ea : Ea} {sz : Size} : Keeps P (Machine.calcEA ea sz) :=
  .bind .readPC fun _ => .bind hP.takeExt fun _ => .bind .checkBrief fun _ => hP.applyEA

theorem readEA {loc : Loc} {sz : Size} : Keeps P (Machine.readEA loc sz) := by
  cases loc with
  | dreg n => exact .readDSized
  | areg n => exact .bind .readA fun _ => .pure
  | mem fc a => exact hP.memReadFC
  | imm v => exact .pure

theorem writeEA {loc : Loc} {sz : Size} {v : Word} : Keeps P (Machine.writeEA loc sz v) := by
  cases loc with
  | dreg n => exact hP.writeDSized
  | areg n => exact hP.writeA
  | mem fc a => exact hP.memWriteFC
  | imm v => exact .pure

theorem fetchEA {ea : Ea} {sz : Size} : Keeps P (Machine.fetchEA ea sz) := .bind hP.calcEA fun _ => hP.readEA

theorem openEA {ea : Ea} {sz : Size} : Keeps P (Machine.openEA ea sz) :=
  .bind hP.calcEA fun _ => .bind hP.readEA fun _ => .pure

theorem predecPair {sz : Size} {ay ax : RegNo} : Keeps P (Machine.predecPair sz ay ax) :=
  .bind hP.fetchEA fun _ => .bind hP.openEA fun _ => .pure

theorem pushLong {v : Word} : Keeps P (Machine.pushLong v) :=
  .bind .readSP fun _ => .bind hP.writeSP fun _ => hP.memWrite

theorem popLong : Keeps P Machine.popLong :=
  .bind .readSP fun _ => .bind hP.memRead fun _ => .bind hP.writeSP fun _ => .pure

/-! ## The rules of the instruction families -/

theorem aluToReg {f : Alu} {sz : Size} {dn : RegNo} {ea : Ea} : Keeps P (Machine.aluToReg f sz dn ea) :=
  .bind hP.fetchEA fun _ => .bind .readDSized fun _ => .bind .readFlags fun _ =>
  .bind hP.writeDSized fun _ => hP.writeFlags

theorem aluToEa {f : Alu} {sz : Size} {dn : RegNo} {ea : Ea} : Keeps P (Machine.aluToEa f sz dn ea) :=
  .bind hP.openEA fun _ => .bind .readDSized fun _ => .bind .readFlags fun _ => .bind hP.writeEA fun _ => hP.writeFlags

theorem aluImm {f : Alu} {sz : Size} {imm : Word} {ea : Ea} : Keeps P (Machine.aluImm f sz imm ea) :=
  .bind hP.fetchEA fun _ => .bind hP.openEA fun _ => .bind .readFlags fun _ => .bind hP.writeEA fun _ => hP.writeFlags

theorem aluRegReg {f : Alu} {sz : Size} {dx dy : RegNo} : Keeps P (Machine.aluRegReg f sz dx dy) :=
  .bind .readDSized fun _ => .bind .readDSized fun _ => .bind .readFlags fun _ =>
  .bind hP.writeDSized fun _ => hP.writeFlags

theorem aluMemMem {f : Alu} {sz : Size} {ax ay : RegNo} : Keeps P (Machine.aluMemMem f sz ax ay) :=
  .bind hP.predecPair fun _ => .bind .readFlags fun _ => .bind hP.writeEA fun _ => hP.writeFlags

theorem aluUnary {f : Alu1} {sz : Size} {ea : Ea} : Keeps P (Machine.aluUnary f sz ea) :=
  .bind hP.openEA fun _ => .bind .readFlags fun _ => .bind hP.writeEA fun _ => hP.writeFlags

theorem addressOp {f : Word → Word → Word} {sz : Size} {an : RegNo} {ea : Ea} :
    Keeps P (Machine.addressOp f sz an ea) := .bind hP.fetchEA fun _ => .bind .readA fun _ => hP.writeA

theorem quickOp {f : Alu} {g : Word → Word → Word} {sz : Size} {q : RegNo} {ea : Ea} :
    Keeps P (Machine.quickOp f g sz q ea) := by
  unfold Machine.quickOp
  split
  · exact .bind .readA fun _ => hP.writeA
  · exact .bind hP.openEA fun _ => .bind .readFlags fun _ => .bind hP.writeEA fun _ => hP.writeFlags

theorem divZeroFlags : Keeps P Machine.divZeroFlags :=
  .bind .readFlags fun _ => .bind hP.undefinedFlag fun _ => .bind hP.undefinedFlag fun _ =>
  .bind hP.undefinedFlag fun _ => hP.writeFlags

theorem divOverflowFlags : Keeps P Machine.divOverflowFlags := by
  have silicon : Keeps P (do
      let f ← Machine.readFlags
      let n ← Machine.undefinedFlag f.n
      let z ← Machine.undefinedFlag f.z
      Machine.writeFlags { f with n := n, z := z, v := true, c := false }) :=
    .bind .readFlags fun _ => .bind hP.undefinedFlag fun _ => .bind hP.undefinedFlag fun _ => hP.writeFlags
  intro s hs
  unfold Machine.divOverflowFlags
  split
  · exact hs
  · exact silicon s hs

theorem mulRule {f : Half → Half → Word} {dn : RegNo} {ea : Ea} : Keeps P (Machine.mulRule f dn ea) :=
  .bind hP.fetchEA fun _ => .bind .readD fun _ => .bind hP.writeD fun _ => hP.modifyFlags

theorem bcdFlags {res : Byte} {c : Bool} : Keeps P (Machine.bcdFlags res c) :=
  .bind .readFlags fun _ => .bind hP.undefinedFlag fun _ => .bind hP.undefinedFlag fun _ => hP.writeFlags

theorem bcdRegReg {f : BcdOp} {dx dy : RegNo} : Keeps P (Machine.bcdRegReg f dx dy) :=
  .bind .readDSized fun _ => .bind .readDSized fun _ => .bind .readFlags fun _ =>
  .bind hP.writeDSized fun _ => hP.bcdFlags

theorem bcdMemMem {f : BcdOp} {ax ay : RegNo} : Keeps P (Machine.bcdMemMem f ax ay) :=
  .bind hP.predecPair fun _ => .bind .readFlags fun _ => .bind hP.writeEA fun _ => hP.bcdFlags

theorem bitTest {n : Nat} {ea : Ea} : Keeps P (Machine.bitTest n ea) :=
  .bind hP.openEA fun _ => .bind hP.modifyFlags fun _ => .pure

theorem bitWrite {f : Word → Word → Word} {n : Nat} {ea : Ea} : Keeps P (Machine.bitWrite f n ea) :=
  .bind hP.bitTest fun _ => hP.writeEA

theorem bitOnly {n : Nat} {ea : Ea} : Keeps P (Machine.bitOnly n ea) := .bind hP.bitTest fun _ => .pure

theorem staticBit {bit : Byte} {k : Nat → Op Unit} (hk : ∀ n, Keeps P (k n)) : Keeps P (Machine.staticBit bit k) :=
  .bind hP.fetchExt fun _ => hk _

theorem readDisp {d : BranchDisp} : Keeps P (Machine.readDisp d) := by
  cases d with
  | short b => exact .pure
  | word w => exact .bind hP.fetchExt fun _ => .pure

theorem branchRule {c : Cond} {d : BranchDisp} : Keeps P (Machine.branchRule c d) :=
  .bind .readPC fun _ => .bind hP.readDisp fun _ => .bind .readCond fun _ => .ite hP.writePC .pure

theorem bsrRule {d : BranchDisp} : Keeps P (Machine.bsrRule d) :=
  .bind .readPC fun _ => .bind hP.readDisp fun _ => .bind .readPC fun _ => .bind hP.pushLong fun _ => hP.writePC

theorem moveRule {sz : Size} {src dst : Ea} : Keeps P (Machine.moveRule sz src dst) :=
  .bind hP.fetchEA fun _ => .bind hP.calcEA fun _ => .bind hP.writeEA fun _ => hP.modifyFlags

theorem moveaRule {sz : Size} {an : RegNo} {src : Ea} : Keeps P (Machine.moveaRule sz an src) :=
  .bind hP.fetchEA fun _ => hP.writeA

theorem storeRegs {sz : Size} {fc : FC} {rs : List GReg} {a : Word} : Keeps P (Machine.storeRegs sz fc rs a) := by
  induction rs generalizing a with
  | nil => exact .pure
  | cons r rs ih => exact .bind .readG fun _ => .bind hP.memWriteFC fun _ => ih

theorem storeRegsDown {sz : Size} {an : RegNo} {count : Nat} {rs : List GReg} {a : Word} :
    Keeps P (Machine.storeRegsDown sz an count rs a) := by
  induction rs generalizing a with
  | nil => exact .pure
  | cons r rs ih => exact .bind .storedValue fun _ => .bind hP.memWrite fun _ => ih

theorem loadRegs {sz : Size} {fc : FC} {rs : List GReg} {a : Word} : Keeps P (Machine.loadRegs sz fc rs a) := by
  induction rs generalizing a with
  | nil => exact .pure
  | cons r rs ih => exact .bind hP.memReadFC fun _ => .bind hP.writeG fun _ => ih

theorem storeAlternate {v : Word} {n : Nat} {a : Word} : Keeps P (Machine.storeAlternate v n a) := by
  induction n generalizing a with
  | zero => exact .pure
  | succ n ih => exact .bind hP.memWrite fun _ => ih

theorem loadAlternate {n : Nat} {a : Word} : Keeps P (Machine.loadAlternate n a) := by
  induction n generalizing a with
  | zero => exact .pure
  | succ n ih => exact .bind hP.memRead fun _ => .bind ih fun _ => .pure

theorem movepLoadRule {sz : Size} {dx ay : RegNo} {d : Half} : Keeps P (Machine.movepLoadRule sz dx ay d) :=
  .bind hP.fetchExt fun _ => .bind .readA fun _ => .bind hP.loadAlternate fun _ => hP.writeDSized

theorem movepStoreRule {sz : Size} {dx ay : RegNo} {d : Half} : Keeps P (Machine.movepStoreRule sz dx ay d) :=
  .bind hP.fetchExt fun _ => .bind .readA fun _ => .bind .readD fun _ => hP.storeAlternate

theorem shiftRegRule {k : ShiftKind} {sz : Size} {c : ShiftCount} {dn : RegNo} :
    Keeps P (Machine.shiftRegRule k sz c dn) :=
  .bind .readCount fun _ => .bind .readDSized fun _ => .bind .readFlags fun _ =>
  .bind hP.writeDSized fun _ => hP.writeFlags

theorem shiftMemRule {k : ShiftKind} {ea : Ea} : Keeps P (Machine.shiftMemRule k ea) :=
  .bind hP.openEA fun _ => .bind .readFlags fun _ => .bind hP.writeEA fun _ => hP.writeFlags

theorem ccrImm {f : Byte → Byte → Byte} {imm : Byte} : Keeps P (Machine.ccrImm f imm) :=
  .bind hP.fetchExt fun _ => .bind .readCCR fun _ => hP.writeCCR

theorem movecStart {code : BitVec 12} {instrAddr : Word} : Keeps P (Machine.movecStart code instrAddr) := by
  refine .bind .from68010 fun _ => .bind .privileged fun _ => .bind hP.fetchExt fun _ => .bind .readModel fun m => ?_
  split
  · exact .bind hP.writePC fun _ => .raise
  · exact .ite .pure (.bind hP.writePC fun _ => .raise)

theorem writeMoves {sz : Size} {r : GReg} {v : Word} : Keeps P (Machine.writeMoves sz r v) := by
  cases r with
  | d n => exact hP.writeDSized
  | a n => exact hP.writeA

theorem chkFlags {n : Bool} : Keeps P (Machine.chkFlags n) :=
  .bind .readFlags fun _ => .bind hP.undefinedFlag fun _ => .bind hP.undefinedFlag fun _ =>
  .bind hP.undefinedFlag fun _ => hP.writeFlags

end Stable

end Sys2Proof.Machine
end

section
/-! SUPPORT. Every instruction outside `writesSystem` is one cycle whose rule keeps every stable predicate. -/

namespace Sys2Proof.Machine

/-- The instructions whose rule writes what `Stable` does not speak of: the whole status word, a control register, the
run condition, or whatever the host likes. All but BKPT are privileged. -/
def writesSystem : Instr → Bool
  | .oriSr _ => true
  | .andiSr _ => true
  | .eoriSr _ => true
  | .moveToSr _ => true
  | .moveToUsp _ => true
  | .movecTo _ _ => true
  | .stop _ => true
  | .rte => true
  | .bkpt _ => true
  | _ => false

/-- What an instruction does is one cycle (R130), whose rule keeps every stable predicate: the rule is put together of
the shared operations alone. -/
theorem exec_cycle (i : Instr) (s : State) (h : writesSystem i = false) :
    ∃ ts rule, exec i s = cycle ts rule s ∧ ∀ P, Stable P → Keeps P rule := by
  cases i
  case oriSr | andiSr | eoriSr | moveToSr | moveToUsp | movecTo | stop | rte | bkpt => cases h
  all_goals
    simp only [exec]
    refine ⟨_, _, rfl, fun _ hP => ?_⟩
  case oriCcr | andiCcr | eoriCcr => exact hP.ccrImm
  case ori | andi | subi | addi | eori => exact hP.aluImm
  case btstI => exact hP.staticBit fun _ => hP.bitOnly
  case bchgI | bclrI | bsetI => exact hP.staticBit fun _ => hP.bitWrite
  case btstD => exact .dynamicBit fun _ => hP.bitOnly
  case bchgD | bclrD | bsetD => exact .dynamicBit fun _ => hP.bitWrite
  case tas => exact .bind hP.openEA fun _ => .bind hP.modifyFlags fun _ => hP.writeEA
  case moves =>
    exact .bind .from68010 fun _ => .bind .privileged fun _ => .bind hP.fetchExt fun _ =>
      .bind .readG fun _ => .bind hP.calcEA fun _ =>
      .ite hP.memWriteFC (.bind hP.memReadFC fun _ => hP.writeMoves)
  case movepLoadW | movepLoadL => exact hP.movepLoadRule
  case movepStoreW | movepStoreL => exact hP.movepStoreRule
  case moveB | moveL | moveW => exact hP.moveRule
  case moveaL | moveaW => exact hP.moveaRule
  case moveq => exact .bind hP.writeD fun _ => hP.modifyFlags
  case neg | negx | notEa => exact hP.aluUnary
  case moveFromSr =>
    exact .bind .readModel fun _ =>
      .ite (.bind .privileged fun _ => .bind hP.calcEA fun _ => .bind .readSR fun _ => hP.writeEA)
        (.bind hP.calcEA fun _ => .bind .readSR fun _ => hP.writeEA)
  case moveFromCcr => exact .bind .from68010 fun _ => .bind hP.calcEA fun _ => .bind .readCCR fun _ => hP.writeEA
  case moveToCcr => exact .bind hP.fetchEA fun _ => hP.writeCCR
  case moveFromUsp => exact .bind .privileged fun _ s => hP.setA s _ _
  case movecFrom => exact .bind hP.movecStart fun _ => .bind (fun _ hs => hs) fun _ => hP.writeG
  case chk =>
    exact .bind hP.fetchEA fun _ => .bind .readD fun _ =>
      .ite (.bind hP.chkFlags fun _ => .raise) (.ite (.bind hP.chkFlags fun _ => .raise) .pure)
  case lea => exact .bind hP.calcEA fun _ => hP.writeA
  case pea => exact .bind hP.calcEA fun _ => hP.pushLong
  case clr => exact .bind hP.calcEA fun _ => .bind hP.writeEA fun _ => hP.modifyFlags
  case scc => exact .bind hP.calcEA fun _ => .bind .readCond fun _ => hP.writeEA
  case tst => exact .bind hP.fetchEA fun _ => hP.modifyFlags
  case nbcd => exact .bind hP.openEA fun _ => .bind .readFlags fun _ => .bind hP.writeEA fun _ => hP.bcdFlags
  case swap | extL => exact .bind .readD fun _ => .bind hP.writeD fun _ => hP.modifyFlags
  case extW => exact .bind .readD fun _ => .bind hP.writeDSized fun _ => hP.modifyFlags
  case movemToMem => exact .bind hP.fetchExt fun _ => .bind hP.calcEA fun _ => hP.storeRegs
  case movemToPredec => exact .bind hP.fetchExt fun _ => .bind .readA fun _ => .bind hP.storeRegsDown fun _ => hP.writeA
  case movemFromMem => exact .bind hP.fetchExt fun _ => .bind hP.calcEA fun _ => .bind hP.loadRegs fun _ => .pure
  case movemFromPostinc => exact .bind hP.fetchExt fun _ => .bind .readA fun _ => .bind hP.loadRegs fun _ => hP.writeA
  case illegal | trap | lineA | lineF => exact .raise
  case trapv => exact .bind .readFlags fun _ => .ite .raise .pure
  case reset => exact .privileged
  case nop => exact .pure
  case link =>
    exact .bind hP.fetchExt fun _ => .bind .readSP fun _ => .bind hP.writeSP fun _ =>
      .bind .readA fun _ => .bind hP.memWrite fun _ => .bind hP.writeA fun _ => .bind .readSP fun _ => hP.writeSP
  case unlk => exact .bind .readA fun _ => .bind hP.writeSP fun _ => .bind hP.popLong fun _ => hP.writeA
  case rtd =>
    exact .bind .from68010 fun _ => .bind hP.fetchExt fun _ => .bind .readSP fun _ =>
      .bind hP.memRead fun _ => .bind hP.writeSP fun _ => hP.writePC
  case rts => exact .bind hP.popLong fun _ => hP.writePC
  case rtr =>
    exact .bind .readSP fun _ => .bind hP.memRead fun _ => .bind hP.writeSP fun _ =>
      .bind hP.popLong fun _ => .bind hP.writeCCR fun _ => hP.writePC
  case jsr => exact .bind hP.calcEA fun _ => .bind .readPC fun _ => .bind hP.pushLong fun _ => hP.writePC
  case jmp => exact .bind hP.calcEA fun _ => hP.writePC
  case addq | subq => exact hP.quickOp
  case dbcc =>
    exact .bind .readPC fun _ => .bind hP.fetchExt fun _ => .bind .readCond fun _ =>
      .ite .pure (.bind .readDSized fun _ => .bind hP.writeDSized fun _ => .ite .pure hP.writePC)
  case bra | bcc => exact .bind .refuse32 fun _ => hP.branchRule
  case bsr => exact .bind .refuse32 fun _ => hP.bsrRule
  case bccL => exact .bind .refuse32 fun _ => .ite hP.bsrRule hP.branchRule
  case orToReg | subToReg | andToReg | addToReg => exact hP.aluToReg
  case orToMem | subToMem | eor | andToMem | addToMem => exact hP.aluToEa
  case subxReg | addxReg => exact hP.aluRegReg
  case subxMem | addxMem => exact hP.aluMemMem
  case suba | adda => exact hP.addressOp
  case divu | divs =>
    exact .bind hP.fetchEA fun _ => .ite (.bind hP.divZeroFlags fun _ => .raise)
      (.bind .readD fun _ => .ite hP.divOverflowFlags (.bind hP.writeD fun _ => hP.modifyFlags))
  case mulu | muls => exact hP.mulRule
  case sbcdReg | abcdReg => exact hP.bcdRegReg
  case sbcdMem | abcdMem => exact hP.bcdMemMem
  case cmp => exact .bind hP.fetchEA fun _ => .bind .readDSized fun _ => hP.modifyFlags
  case cmpa => exact .bind hP.fetchEA fun _ => .bind .readA fun _ => hP.modifyFlags
  case cmpi | cmpm => exact .bind hP.fetchEA fun _ => .bind hP.fetchEA fun _ => hP.modifyFlags
  case exgDD => exact .bind .readD fun _ => .bind .readD fun _ => .bind hP.writeD fun _ => hP.writeD
  case exgAA => exact .bind .readA fun _ => .bind .readA fun _ => .bind hP.writeA fun _ => hP.writeA
  case exgDA => exact .bind .readD fun _ => .bind .readA fun _ => .bind hP.writeD fun _ => hP.writeA
  case asrReg | aslReg | lsrReg | lslReg | roxrReg | roxlReg | rorReg | rolReg => exact hP.shiftRegRule
  case asrMem | aslMem | lsrMem | lslMem | roxrMem | roxlMem | rorMem | rolMem => exact hP.shiftMemRule
  case chk2Cmp2 | cas | rtm | callm | chkL | linkL | extbL | mulL | divL | trapcc | pack | unpk | bitField | tst20
      | cmpi20 =>
    exact .only68020

end Sys2Proof.Machine
end

section
/-! SUPPORT. The invariant of the model (R39, R86) under every write a step makes: those of the rules, those of the
delivery of an exception, and the host's edit at a breakpoint. -/

namespace Sys2Proof.Machine

/-! ## One write -/

/-- The invariant speaks of the parameters, the status word and memory alone. -/
theorem State.Inv.congr {s t : State} (h : s.Inv) (hc : t.cfg = s.cfg) (hs : t.sr = s.sr) (hm : Memory.wf t.mem) :
    t.Inv where
  mem_wf := hm
  sr_masked := by rw [hc, hs, h.sr_masked]

/-- A write of the status word is masked (R39). -/
theorem State.Inv.setSR {s : State} (h : s.Inv) (v : Half) : (s.setSR v).Inv where
  mem_wf := h.mem_wf
  sr_masked := by rw [State.setSR_sr, State.setSR_cfg, BitVec.and_assoc, BitVec.and_self]

/-- Bits that a mask keeps are kept together. -/
theorem or_masked {a b m : Half} (ha : a &&& m = a) (hb : b &&& m = b) : (a ||| b) &&& m = a ||| b := by
  calc (a ||| b) &&& m = (a &&& m) ||| (b &&& m) := by ext i hi; simp [Bool.and_or_distrib_right]
    _ = a ||| b := by rw [ha, hb]

/-- Every model has the bits of the CCR (R39). -/
theorem Model.ccr_masked (m : Model) : 0x001F#16 &&& m.srMask = 0x001F#16 := by cases m <;> decide

theorem State.Inv.setCCR {s : State} (h : s.Inv) (v : Byte) : (s.setCCR v).Inv where
  mem_wf := h.mem_wf
  sr_masked := by
    have hlow : (v.setWidth 16 &&& 0x001F#16) &&& s.cfg.model.srMask = v.setWidth 16 &&& 0x001F#16 := by
      rw [BitVec.and_assoc, Model.ccr_masked]
    have hhigh : (s.sr &&& 0xFFE0#16) &&& s.cfg.model.srMask = s.sr &&& 0xFFE0#16 := by
      rw [BitVec.and_assoc, BitVec.and_comm 0xFFE0#16, ← BitVec.and_assoc, h.sr_masked]
    rw [State.setCCR_sr, State.setCCR_cfg, or_masked hhigh hlow]

theorem State.Inv.putByte {s : State} (h : s.Inv) (fc : FC) (a : Word) (b : Byte) : (s.putByte fc a b).Inv :=
  h.congr rfl rfl (s.wf_putByte fc a b h.mem_wf)

/-- The invariant survives every write of an unprivileged rule. -/
theorem State.Inv.stable : Stable State.Inv where
  setD _ _ _ h := h.congr rfl rfl h.mem_wf
  setA s n v h := h.congr (s.setA_cfg n v) (s.setA_sr n v) (by simpa using h.mem_wf)
  setPC _ _ h := h.congr rfl rfl h.mem_wf
  setCCR _ v h := h.setCCR v
  putByte _ fc a b h := h.putByte fc a b
  setDraws _ _ h := h.congr rfl rfl h.mem_wf

theorem State.Inv.writeControl {s : State} (h : s.Inv) (r : ControlReg) (v : Word) : (s.writeControl r v).Inv :=
  h.congr (s.writeControl_cfg r v) (s.writeControl_sr r v) (by simpa using h.mem_wf)

theorem State.Inv.halt {s : State} (h : s.Inv) : s.halt.Inv := h.congr rfl rfl h.mem_wf

/-! ## The privileged rules -/

theorem keeps_inv_writeSR {v : Half} : Keeps State.Inv (writeSR v) := fun _ h => h.setSR v

theorem keeps_inv_writeControl (r : ControlReg) {v : Word} :
    Keeps State.Inv (fun t => .ok () (t.writeControl r v) : Op Unit) := fun _ h => h.writeControl r v

theorem keeps_inv_setRun {c : RunCondition} : Keeps State.Inv (fun t => .ok () { t with run := c } : Op Unit) :=
  fun _ h => h.congr rfl rfl h.mem_wf

theorem keeps_inv_srImm {f : Half → Half → Half} {imm : Half} : Keeps State.Inv (srImm f imm) :=
  .bind .privileged fun _ => .bind State.Inv.stable.fetchExt fun _ => .bind .readSR fun _ => keeps_inv_writeSR

theorem keeps_inv_returnFromException : Keeps State.Inv returnFromException := by
  have load : ∀ {sp sr pc}, Keeps State.Inv (do writeSP sp; writeSR sr; writePC pc) :=
    .bind State.Inv.stable.writeSP fun _ => .bind keeps_inv_writeSR fun _ => State.Inv.stable.writePC
  refine .bind .readSP fun _ => .bind State.Inv.stable.memReadFC fun _ => .bind State.Inv.stable.memReadFC fun _ =>
    .bind State.Inv.stable.memReadFC fun _ => ?_
  split
  · exact load
  · exact load
  · exact .raise

/-! ## Free values -/

theorem State.Inv.withDraws {s : State} (h : s.Inv) (k : Nat) : ({ s with draws := k } : State).Inv :=
  State.Inv.stable.setDraws s k h

theorem State.Inv.drawTarget {s : State} (h : s.Inv) (x : Target) : (s.drawTarget x).Inv := by
  cases x with
  | d n => exact (State.Inv.stable.setD s n _ h).withDraws _
  | a n => exact (State.Inv.stable.setA s n _ h).withDraws _
  | mem fc a n => exact State.Inv.stable.drawBytes fc a n h
  | pc => exact h.congr rfl rfl h.mem_wf
  | control r => exact (h.writeControl r _).withDraws _
  | ccr mask => exact (h.setCCR _).withDraws _

theorem State.Inv.fetchLeaves {s : State} (h : s.Inv) (ts : List Target) : (s.fetchLeaves ts).Inv := by
  induction ts generalizing s with
  | nil => exact h
  | cons x ts ih => exact ih (h.drawTarget x)

theorem State.Inv.faultLeaves {s : State} (h : s.Inv) (ts : List Target) : (s.faultLeaves ts).Inv :=
  ((h.fetchLeaves ts).setCCR _).withDraws _

/-! ## Taking an exception (R458) -/

theorem State.Inv.putFields {s t : State} {fs : List (Word × Nat × Word)} {b : Bool} (h : s.Inv)
    (ht : s.putFields fs = (b, t)) : t.Inv := by
  induction fs generalizing s with
  | nil =>
    cases ht
    exact h
  | cons f fs ih =>
    obtain ⟨a, n, v⟩ := f
    unfold State.putFields at ht
    split at ht
    · cases ht
      exact State.Inv.stable.called 5 a n h
    · rename_i u hu
      exact ih (State.Inv.stable.memPut h hu) ht

theorem State.Inv.afterFetch {s : State} (h : s.Inv) (a : Word) : (s.afterFetch a).Inv :=
  State.Inv.stable.afterFetch a h

theorem State.Inv.withOpcode {s : State} (h : s.Inv) (w : Half) : ({ s with opcode := w } : State).Inv :=
  h.congr rfl rfl h.mem_wf

theorem State.Inv.enterHandler {s : State} (h : s.Inv) (vec : Nat) : (s.enterHandler vec).Inv := by
  have hc : ∀ va, (s.called 5 va 4).Inv := fun va => State.Inv.stable.called 5 va 4 h
  simp only [State.enterHandler]
  split
  · exact h.halt
  · split
    · exact (hc _).halt
    · have hv := fun v => State.Inv.stable.setPC _ v (hc (s.vbrEff + BitVec.ofNat 32 (4 * vec)))
      split
      · exact ((hv _).afterFetch _).withOpcode _
      · exact ((hv _).afterFetch _).halt

theorem State.Inv.deliver {s : State} (h : s.Inv) (e : Exc) (o : Origin) (a : Word) : (deliver e o a s).Inv := by
  have h1 := h.setSR ((s.sr ||| 0x2000#16) &&& ~~~0xC000#16)
  simp only [Machine.deliver]
  split
  · exact h1.halt
  · split
    · rename_i s2 hf
      have h2 : s2.Inv := h1.putFields hf
      exact (State.Inv.stable.drawBytes 5 _ _ h2).halt
    · rename_i s2 hf
      have h2 : s2.Inv := h1.putFields hf
      exact State.Inv.enterHandler (State.Inv.stable.setA s2 7 _ h2) _

/-! ## The cycle (R130) -/

theorem State.Inv.counted {s : State} (h : s.Inv) : s.counted.Inv := h.congr rfl rfl h.mem_wf

theorem State.Inv.endPrefetch {s : State} (h : s.Inv) (a : Word) : (endPrefetch a s).Inv := by
  unfold Machine.endPrefetch
  split
  · exact (h.afterFetch _).withOpcode _
  · exact (h.afterFetch _).deliver _ _ _

theorem State.Inv.finish {s : State} (h : s.Inv) (b : Bool) (a : Word) : (finish b a s).Inv := by
  unfold Machine.finish
  split
  · exact h.counted.endPrefetch a
  · exact h.counted

theorem State.Inv.withCounts {s : State} (h : s.Inv) (p : Word) (k : Nat) :
    ({ s with pc := p, draws := k } : State).Inv :=
  h.congr rfl rfl h.mem_wf

theorem State.Inv.fetchState {s : State} (h : s.Inv) (ts : List Target) (u : State) : (fetchState ts s u).Inv :=
  (h.withCounts u.pc u.draws).fetchLeaves ts

theorem State.Inv.excState {s u : State} (h : s.Inv) (hu : u.Inv) (e : Exc) (ts : List Target) :
    (excState e ts s u).Inv := by
  unfold Machine.excState
  split
  · exact (h.withCounts u.pc u.draws).faultLeaves ts
  · exact (h.withCounts u.pc u.draws).faultLeaves ts
  · exact hu

/-- A cycle whose rule keeps the invariant keeps it. -/
theorem State.Inv.cycleWith {b : Bool} {ts : List Target} {rule : Op Unit} {s t : State} (h : s.Inv)
    (hr : Keeps State.Inv rule) (ht : cycleWith b ts rule s = .next t) : t.Inv := by
  have hu : (endState (rule s.started)).Inv := hr _ (State.Inv.stable.setPC s _ h)
  rcases cycleWith_cases b ts rule s with ⟨u, hrun, hc⟩ | ⟨e, u, hrun, hc⟩ | ⟨e, u, hrun, hc⟩ | ⟨r, u, hrun, hc⟩
  all_goals
    rw [hrun] at hu
    rw [hc] at ht
    cases ht
  · exact State.Inv.finish hu b s.pc
  · exact (State.Inv.counted (h.excState hu e ts)).deliver _ _ _
  · exact (h.fetchState ts u).counted.deliver _ _ _

/-! ## The breakpoint callback (R440) -/

theorem State.Inv.foldl_putByte {s : State} (h : s.Inv) (bs : List (FC × Word × Byte)) :
    (bs.foldl (fun t b => t.putByte b.1 b.2.1 b.2.2) s).Inv := by
  induction bs generalizing s with
  | nil => exact h
  | cons b bs ih => exact ih (h.putByte _ _ _)

/-- The host's edit masks the status word and writes bytes one by one (R440, R499). -/
theorem State.Inv.edited {s : State} (h : s.Inv) (e : HostEdit) : (s.edited e).Inv := by
  refine State.Inv.foldl_putByte ?_ e.bytes
  exact (h.setSR e.sr).congr rfl rfl h.mem_wf

/-- BKPT after `pc` is rewound: with a callback the host's edit, without one the word is illegal (R440). -/
theorem keeps_inv_callback {v : RegNo} : Keeps State.Inv (fun t =>
    if t.cfg.bkptPresent then .ok () (t.edited (bkptCallback t v))
    else .error (.exc .illegalInstruction) t : Op Unit) := by
  intro t ht
  dsimp only
  split
  · exact ht.edited _
  · exact ht

/-! ## The step -/

/-- Every instruction keeps the invariant. -/
theorem State.Inv.exec {i : Instr} {s t : State} (h : s.Inv) (ht : exec i s = .next t) : t.Inv := by
  have hst := State.Inv.stable
  cases hw : writesSystem i with
  | false =>
    obtain ⟨ts, rule, hc, hk⟩ := exec_cycle i s hw
    exact h.cycleWith (hk _ hst) (hc ▸ ht)
  | true =>
    cases i
    case oriSr | andiSr | eoriSr => exact h.cycleWith keeps_inv_srImm ht
    case moveToSr => exact h.cycleWith (.bind .privileged fun _ => .bind hst.fetchEA fun _ => keeps_inv_writeSR) ht
    case moveToUsp =>
      exact h.cycleWith (.bind .privileged fun _ => .bind .readA fun _ => keeps_inv_writeControl .usp) ht
    case movecTo => exact h.cycleWith (.bind hst.movecStart fun c => .bind .readG fun _ => keeps_inv_writeControl c) ht
    case stop =>
      exact h.cycleWith (.bind .privileged fun _ => .bind hst.fetchExt fun _ => .bind keeps_inv_writeSR fun _ =>
        keeps_inv_setRun) ht
    case rte => exact h.cycleWith (.bind .privileged fun _ => keeps_inv_returnFromException) ht
    case bkpt => exact h.cycleWith (.bind hst.writePC fun _ => keeps_inv_callback) ht
    all_goals cases hw

/-- Settles O51: outside a running step nothing changes; within it a word without a row is one cycle that raises, and
every instruction keeps the invariant. -/
theorem stepKeepsInvariant : Obligations.StepKeepsInvariant := by
  unfold Obligations.StepKeepsInvariant
  intro s t h ht
  unfold step stepBody at ht
  split at ht
  · unfold runStep at ht
    split at ht
    · cases ht
    · split at ht
      · exact h.cycleWith .raise ht
      · exact h.exec ht
  · cases ht
    exact h

end Sys2Proof.Machine
end

section
/-! SUPPORT. The memory primitives (R71, R72, R75, R78): what a call in a window of the host's own counts, the bytes of
a stored value one by one, and reading a stored value back. -/

namespace Sys2Proof.Machine

/-! ## Calls that the host answers on its own -/

theorem MemMap.touches_of_own {mm : MemMap} {it : Intent} {fc : FC} {a : Word} {n : Nat}
    (h : mm.answer it fc a n = .own) : touches mm.own fc a n = true := by
  unfold MemMap.answer at h
  cases ht : touches mm.own fc a n with
  | true => rfl
  | false =>
    rw [ht, if_neg Bool.false_ne_true] at h
    split_ifs at h

theorem State.called_of_own {s : State} {it : Intent} {fc : FC} {a : Word} {n : Nat}
    (h : s.cfg.mem.answer it fc a n = .own) : s.called fc a n = { s with draws := s.draws + 1 } := by
  simp only [State.called, MemMap.touches_of_own h, if_true]

/-- A call changes nothing but the count of free values. -/
theorem State.called_only_draws (s : State) (fc : FC) (a : Word) (n : Nat) :
    ∃ k, s.called fc a n = { s with draws := k } := by
  unfold State.called
  split <;> exact ⟨_, rfl⟩

theorem State.afterFetch_only_draws (s : State) (a : Word) : ∃ k, s.afterFetch a = { s with draws := k } := by
  unfold State.afterFetch
  split
  · exact ⟨_, rfl⟩
  · exact s.called_only_draws _ a 2

theorem memReadFC_own {s : State} {fc : FC} {a : Word} {n : Nat} (h1 : ¬ (n ≠ 1 ∧ odd a = true))
    (h2 : s.cfg.mem.answer .read fc a n = .own) :
    memReadFC fc a n s =
      if (s.reply .read fc a n 0).ok then
        .ok (lowBytes n (s.reply .read fc a n 0).value) { s with draws := s.draws + 1 }
      else .error (.exc .busError) { s with draws := s.draws + 1 } := by
  simp only [memReadFC, if_neg h1, State.memGet, h2, State.called_of_own h2]
  cases (s.reply .read fc a n 0).ok <;> rfl

theorem memWriteFC_own {s : State} {fc : FC} {a v : Word} {n : Nat} (h1 : ¬ (n ≠ 1 ∧ odd a = true))
    (h2 : s.cfg.mem.answer .write fc a n = .own) :
    memWriteFC fc a n v s =
      if (s.reply .write fc a n v).ok then .ok () { s with draws := s.draws + 1 }
      else .error (.exc .busError) { s with draws := s.draws + 1 } := by
  simp only [memWriteFC, if_neg h1, State.memPut, h2, State.called_of_own h2]
  cases (s.reply .write fc a n v).ok <;> rfl

/-- A value of 0 has no other low bytes: what a read passes in `value` (R70). -/
theorem lowBytes_zero (n : Nat) : lowBytes n 0 = 0 := by simp [lowBytes]

/-! ## Instruction fetch (R78) -/

theorem State.fetchWordAt_odd {s : State} {a : Word} (h : odd a = true) : s.fetchWordAt a = .error .addressError := by
  simp only [State.fetchWordAt, h, if_true]

theorem State.fetchWordAt_refused {s : State} {a : Word} (h : odd a = false)
    (hr : s.cfg.mem.answer .read s.progFC a 2 = .refused) : s.fetchWordAt a = .error .busError := by
  simp only [State.fetchWordAt, h, Bool.false_eq_true, if_false, State.memGet, hr]

theorem State.afterFetch_eq (s : State) (a : Word) :
    s.afterFetch a = if odd a = false ∧ s.cfg.mem.answer .read s.progFC a 2 = .own
      then { s with draws := s.draws + 1 } else s := by
  unfold State.afterFetch
  cases odd a with
  | true => simp
  | false =>
    by_cases h : s.cfg.mem.answer .read s.progFC a 2 = .own
    · simp [h, State.called_of_own h]
    · simp [h, State.called_of_answer h]

/-! ## The bytes of a value (R75) -/

theorem getLsbD_lowBytes (n : Nat) (v : Word) (i : Nat) :
    (lowBytes n v).getLsbD i = (decide (i < 8 * n) && v.getLsbD i) := by
  simp only [lowBytes, BitVec.getLsbD_ofNat, Nat.testBit_mod_two_pow, BitVec.testBit_toNat]
  rcases Nat.lt_or_ge i 32 with h | h
  · simp [h]
  · simp [BitVec.getLsbD_of_ge _ _ h]

/-- The next byte of a value, in its place above the lower ones. -/
theorem lowBytes_succ (n : Nat) (v : Word) :
    ((v >>> (8 * n)).setWidth 8).setWidth 32 <<< (8 * n) ||| lowBytes n v = lowBytes (n + 1) v := by
  refine BitVec.eq_of_getLsbD_eq fun i hi => ?_
  simp only [BitVec.getLsbD_or, BitVec.getLsbD_shiftLeft, BitVec.getLsbD_setWidth, BitVec.getLsbD_ushiftRight,
    getLsbD_lowBytes, hi, decide_true, Bool.true_and]
  rcases Nat.lt_or_ge i (8 * n) with h | h
  · simp [h, show i < 8 * (n + 1) by omega]
  · have e : 8 * n + (i - 8 * n) = i := by omega
    by_cases h' : i < 8 * (n + 1)
    · simp [h', e, show ¬ i < 8 * n by omega, show i - 8 * n < 8 by omega, show i - 8 * n < 32 by omega]
    · simp [h', show ¬ i < 8 * n by omega, show ¬ i - 8 * n < 8 by omega]

/-- Two bytes of an access to fewer than 2^32 of them have different keys. -/
theorem MemMap.key_add_ne (mm : MemMap) (fc : FC) (a : Word) {j k : Nat} (hj : j < 2 ^ 32) (hk : k < 2 ^ 32)
    (h : j ≠ k) :
    mm.key fc (a + BitVec.ofNat 32 j) ≠ mm.key fc (a + BitVec.ofNat 32 k) := by
  rw [Ne, MemMap.key_inj, BitVec.add_right_inj, ← BitVec.toNat_inj, BitVec.toNat_ofNat, BitVec.toNat_ofNat,
    Nat.mod_eq_of_lt hj, Nat.mod_eq_of_lt hk]
  exact h

/-- A store of more than one byte: the high byte at the address itself. -/
theorem State.byteAt_putBytes_first {s : State} (fc : FC) (a v : Word) {n : Nat} (hn : n + 1 < 2 ^ 32)
    (h : Memory.wf s.mem) : (s.putBytes fc a v (n + 1)).byteAt fc a = (v >>> (8 * n)).setWidth 8 := by
  rw [State.putBytes, State.byteAt_putBytes_ne, State.byteAt_putByte_same _ _ _ _ h]
  intro k hk
  have := MemMap.key_add_ne s.cfg.mem fc a (j := 0) (k := 1 + k) (by omega) (by omega) (by omega)
  rw [BitVec.ofNat_add, ← BitVec.add_assoc] at this
  simpa using this

/-- Byte `k` of a stored value, counted from the high one. -/
theorem State.byteAt_putBytes {s : State} (fc : FC) (a v : Word) {n k : Nat} (hn : n < 2 ^ 32) (hk : k < n)
    (h : Memory.wf s.mem) :
    (s.putBytes fc a v n).byteAt fc (a + BitVec.ofNat 32 k) = (v >>> (8 * (n - 1 - k))).setWidth 8 := by
  induction n generalizing s a k with
  | zero => omega
  | succ n ih =>
    cases k with
    | zero => simpa using State.byteAt_putBytes_first fc a v hn h
    | succ k =>
      have := ih (s := s.putByte fc a ((v >>> (8 * n)).setWidth 8)) (a + 1) (by omega) (by omega : k < n)
        (s.wf_putByte fc a _ h)
      rw [show a + BitVec.ofNat 32 (k + 1) = a + 1 + BitVec.ofNat 32 k by
        rw [Nat.add_comm k 1, BitVec.ofNat_add, BitVec.add_assoc]; rfl, State.putBytes, this]
      congr 3
      omega

/-- What is stored is read back: the value's low bytes. -/
theorem State.bytesAt_putBytes {s : State} (fc : FC) (a v : Word) {n : Nat} (hn : n < 2 ^ 32) (h : Memory.wf s.mem) :
    (s.putBytes fc a v n).bytesAt fc a n = lowBytes n v := by
  induction n generalizing s a with
  | zero => simp [State.bytesAt, lowBytes, Nat.mod_one]
  | succ n ih =>
    have first := State.byteAt_putBytes_first fc a v hn h
    have rest := ih (s := s.putByte fc a ((v >>> (8 * n)).setWidth 8)) (a + 1) (by omega) (s.wf_putByte fc a _ h)
    rw [State.bytesAt, first, State.putBytes, rest, lowBytes_succ]

/-- A store changes memory alone. -/
theorem State.putBytes_only_mem (s : State) (fc : FC) (a v : Word) (n : Nat) :
    ∃ m, s.putBytes fc a v n = { s with mem := m } := by
  induction n generalizing s a with
  | zero => exact ⟨_, rfl⟩
  | succ n ih =>
    obtain ⟨m, hm⟩ := ih (s.putByte fc a ((v >>> (8 * n)).setWidth 8)) (a + 1)
    exact ⟨m, hm⟩

theorem State.bytesAt_word (s : State) (fc : FC) (a : Word) :
    s.bytesAt fc a 2 = (s.byteAt fc a ++ s.byteAt fc (a + 1)).setWidth 32 := by
  refine BitVec.eq_of_getLsbD_eq fun i hi => ?_
  simp only [State.bytesAt, BitVec.getLsbD_or, BitVec.getLsbD_shiftLeft, BitVec.getLsbD_setWidth, BitVec.getLsbD_append]
  interval_cases i <;> simp

theorem State.bytesAt_long (s : State) (fc : FC) (a : Word) :
    s.bytesAt fc a 4 =
      s.byteAt fc a ++ s.byteAt fc (a + 1) ++ s.byteAt fc (a + 2) ++ s.byteAt fc (a + 3) := by
  have h2 : a + 1 + 1 = a + 2 := BitVec.add_assoc a 1 1
  have h3 : a + 2 + 1 = a + 3 := BitVec.add_assoc a 2 1
  refine BitVec.eq_of_getLsbD_eq fun i hi => ?_
  rw [BitVec.getLsbD_append (y := s.byteAt fc (a + 3)), BitVec.getLsbD_append, BitVec.getLsbD_append]
  simp only [State.bytesAt, h2, h3, BitVec.getLsbD_or, BitVec.getLsbD_shiftLeft, BitVec.getLsbD_setWidth]
  interval_cases i <;> simp

/-- The low byte of a value moved down is a field of it. -/
theorem setWidth_ushiftRight (v : Word) (k : Nat) : (v >>> k).setWidth 8 = v.extractLsb' k 8 := by
  refine BitVec.eq_of_getLsbD_eq fun i hi => ?_
  simp [hi]

/-! ## The obligations -/

/-- Settles O3: the read and the fetch by the answer of the host. -/
theorem memoryReads : Obligations.MemoryReads := by
  unfold Obligations.MemoryReads
  refine ⟨fun s fc a n _ => ⟨fun h => ?_, fun h hr => ?_, fun h ho => ?_, fun h hs => ?_, rfl⟩,
    fun s a => ⟨fun h => ?_, fun h hr => ?_, fun h hs => ?_, ?_, fun w hw => ?_, fun e he => ?_⟩⟩
  · exact memReadFC_odd h
  · exact memReadFC_refused h hr
  · have := memReadFC_own h ho
    rwa [State.reply, lowBytes_zero] at this
  · exact memReadFC_ok h hs
  · exact State.fetchWordAt_odd h
  · exact State.fetchWordAt_refused h hr
  · exact State.fetchWordAt_ok (State.fetchable_iff.2 ⟨h, hs⟩)
  · exact s.afterFetch_eq a
  · simp only [fetchExt, hw]
  · obtain ⟨k, hk⟩ := s.afterFetch_only_draws s.pc
    exact ⟨_, by rw [fetchExt_error he, hk]⟩

/-- Settles O4: the write by the answer of the host; a served one stores the bytes, which read back. -/
theorem memoryWriteThenRead : Obligations.MemoryWriteThenRead := by
  unfold Obligations.MemoryWriteThenRead
  intro s fc a v n hn
  refine ⟨memWriteFC_odd, fun h => ⟨memWriteFC_refused h, fun hi => ?_, memWriteFC_own h, fun hw hs => ?_⟩⟩
  · exact memWriteFC_ok h (by simp only [State.memPut, hi])
  · exact ⟨_, memWriteFC_ok h (State.memPut_of_accepts hs), State.bytesAt_putBytes fc a v (by omega) hw,
      s.putBytes_only_mem fc a v n, s.wf_putBytes fc a v n hw, fun fc' b hb => s.byteAt_putBytes_ne fc fc' a b v n hb⟩

/-- Settles O5: the bytes of a word and of a long, read, stored and fetched. -/
theorem bigEndian : Obligations.BigEndian := by
  unfold Obligations.BigEndian
  intro s fc a v h
  have stored : ∀ {n} k, n < 2 ^ 32 → k < n →
      (s.putBytes fc a v n).byteAt fc (a + BitVec.ofNat 32 k) = v.extractLsb' (8 * (n - 1 - k)) 8 := fun k hn hk =>
    (State.byteAt_putBytes fc a v hn hk h).trans (setWidth_ushiftRight v _)
  have first : ∀ {n}, n < 2 ^ 32 → 0 < n →
      (s.putBytes fc a v n).byteAt fc a = v.extractLsb' (8 * (n - 1)) 8 := fun hn hk => by
    simpa using stored 0 hn hk
  refine ⟨s.bytesAt_word fc a, s.bytesAt_long fc a,
    first (n := 2) (by decide) (by decide), stored (n := 2) 1 (by decide) (by decide),
    first (n := 4) (by decide) (by decide), stored (n := 4) 1 (by decide) (by decide),
    stored (n := 4) 2 (by decide) (by decide), stored (n := 4) 3 (by decide) (by decide), fun w hf hw => ?_⟩
  rw [State.fetchWordAt_ok hf, State.bytesAt_word] at hw
  cases hw
  simp

end Sys2Proof.Machine
end

section
/-! SUPPORT. What free values leave alone (R135, D23): every register and byte outside the targets, the system byte of
the status register, and the flags outside the targets' masks. -/

namespace Sys2Proof.Machine

/-! ## Frames -/

variable {w : List Target} {own : StackReg → Bool} {s t u : State}

/-- Two states with the same parameters and the same system byte have the same active stack pointer (R33). -/
theorem State.activeStack_congr (hc : t.cfg = s.cfg) (hs : t.sr &&& 0xFFE0#16 = s.sr &&& 0xFFE0#16) :
    t.activeStack = s.activeStack := by
  have bit : ∀ i, (0xFFE0#16).getLsbD i = true → t.sr.getLsbD i = s.sr.getLsbD i := fun i hi => by
    have := congrArg (fun v : Half => v.getLsbD i) hs
    simpa only [BitVec.getLsbD_and, hi, Bool.and_true] using this
  simp only [State.activeStack, State.supervisor, State.master, hc, bit 13 (by decide), bit 12 (by decide)]
  rfl

theorem State.Frame.refl (s : State) : s.Frame s w own :=
  ⟨fun _ _ => rfl, fun _ _ _ => rfl, fun _ _ _ => rfl, fun _ _ _ => rfl⟩

/-- Frames follow one another while the parameters and the active stack stay. -/
theorem State.Frame.trans (h : s.Frame t w own) (h' : t.Frame u w own) (hc : t.cfg = s.cfg)
    (ha : t.activeStack = s.activeStack) : s.Frame u w own where
  data n hn := (h'.data n hn).trans (h.data n hn)
  address n h7 hn := (h'.address n h7 hn).trans (h.address n h7 hn)
  stack r ho hr := (h'.stack r ho (ha ▸ hr)).trans (h.stack r ho hr)
  memory fc a hm := (h'.memory fc a (hc ▸ hm)).trans (h.memory fc a hm)

/-- `t` is what is left of `s`: the frame holds, the parameters are the same, and so is the system byte of SR. -/
structure State.Left (s t : State) (w : List Target) (own : StackReg → Bool) : Prop where
  frame : s.Frame t w own
  cfg : t.cfg = s.cfg
  system : t.sr &&& 0xFFE0#16 = s.sr &&& 0xFFE0#16

theorem State.Left.trans (h : s.Left t w own) (h' : t.Left u w own) : s.Left u w own where
  frame := h.frame.trans h'.frame h.cfg (State.activeStack_congr h.cfg h.system)
  cfg := h'.cfg.trans h.cfg
  system := h'.system.trans h.system

/-- `pc` and the count of free values are no part of a frame. -/
theorem State.Left.withCounts (h : s.Left t w own) (p : Word) (k : Nat) :
    s.Left { t with pc := p, draws := k } w own where
  frame := ⟨h.frame.data, h.frame.address, h.frame.stack, h.frame.memory⟩
  cfg := h.cfg
  system := h.system

theorem State.Left.refl (s : State) : s.Left s w own := ⟨.refl s, rfl, rfl⟩

/-! ## One write -/

theorem State.stackReg_setSP_of_ne {r : StackReg} (v : Word) (h : r ≠ s.activeStack) :
    (s.setSP v).stackReg r = s.stackReg r := by
  unfold State.setSP
  cases hs : s.activeStack <;> cases r <;> simp_all [State.stackReg]

theorem State.stackReg_setA {n : RegNo} {r : StackReg} (v : Word) (h : n = 7 → r ≠ s.activeStack) :
    (s.setA n v).stackReg r = s.stackReg r := by
  by_cases hn : n.val < 7
  · simp only [State.setA, hn, dif_pos]
    rfl
  · have h7 : n = 7 := Fin.ext (show n.val = 7 by omega)
    subst h7
    exact State.stackReg_setSP_of_ne v (h rfl)

theorem State.getA_of_ne_seven {n : RegNo} (h : n ≠ 7) (ha : t.a = s.a) : t.getA n = s.getA n := by
  have hne : n.val ≠ 7 := fun e => h (Fin.ext e)
  have hn : n.val < 7 := by omega
  simp only [State.getA, hn, dif_pos, ha]

theorem State.left_setD {n : RegNo} (v : Word) (hn : .d n ∈ w) : s.Left (s.setD n v) w own where
  frame := {
    data := fun _ hm => s.getD_setD_ne v fun e => hm (e ▸ hn)
    address := fun _ _ _ => s.getA_setD n _ v
    stack := fun _ _ _ => rfl
    memory := fun _ _ _ => rfl }
  cfg := rfl
  system := rfl

theorem State.left_setA {n : RegNo} (v : Word) (hn : .a n ∈ w) : s.Left (s.setA n v) w own where
  frame := {
    data := fun m _ => s.getD_setA n m v
    address := fun _ _ hm => s.getA_setA_ne v fun e => hm (e ▸ hn)
    stack := fun r _ hr => State.stackReg_setA v fun e he => hr he (e ▸ hn)
    memory := fun fc a _ => by simp [State.byteAt] }
  cfg := s.setA_cfg n v
  system := by rw [State.setA_sr]

theorem State.left_setCCR (v : Byte) : s.Left (s.setCCR v) w own where
  frame := {
    data := fun _ _ => rfl
    address := fun _ h7 _ => State.getA_of_ne_seven h7 rfl
    stack := fun _ _ _ => rfl
    memory := fun _ _ _ => rfl }
  cfg := rfl
  system := by
    refine BitVec.eq_of_getLsbD_eq fun i hi => ?_
    simp only [BitVec.getLsbD_and]
    rcases Nat.lt_or_ge i 5 with h | h
    · have : (0xFFE0#16).getLsbD i = false := by interval_cases i <;> rfl
      rw [this, Bool.and_false, Bool.and_false]
    · rw [State.getLsbD_setCCR_high s v h]

/-- The stack register a control register is, if it is one (R44). -/
def ControlReg.stackReg : ControlReg → Option StackReg
  | .usp => some .usp
  | .isp => some .isp
  | .msp => some .msp
  | _ => none

theorem State.stackReg_writeControl {c : ControlReg} {r : StackReg} (v : Word) (h : c.stackReg ≠ some r) :
    (s.writeControl c v).stackReg r = s.stackReg r := by
  cases c with
  | usp => cases r with
    | usp => exact absurd rfl h
    | isp | msp => rfl
  | isp => cases r with
    | isp => exact absurd rfl h
    | usp | msp => rfl
  | msp => cases r with
    | msp => exact absurd rfl h
    | usp | isp => rfl
  | sfc | dfc | vbr | cacr | caar => cases r <;> rfl

theorem State.left_writeControl {c : ControlReg} (v : Word) (hc : ∀ r, c.stackReg = some r → own r = true) :
    s.Left (s.writeControl c v) w own where
  frame := {
    data := fun _ _ => by simp [State.getD]
    address := fun m h7 _ => State.getA_of_ne_seven h7 (s.writeControl_a c v)
    stack := fun r ho _ => State.stackReg_writeControl v fun e => by
      rw [hc r e] at ho
      cases ho
    memory := fun _ _ _ => by simp [State.byteAt] }
  cfg := s.writeControl_cfg c v
  system := by rw [State.writeControl_sr]

/-! ## Free values -/

theorem State.drawBytes_only_mem (s : State) (fc : FC) (a : Word) (n : Nat) :
    ∃ m k, s.drawBytes fc a n = { s with mem := m, draws := k } := by
  induction n generalizing s a with
  | zero => exact ⟨_, _, rfl⟩
  | succ n ih =>
    obtain ⟨m, k, h⟩ := ih { s.putByte fc a (Config.freeByte s.draws) with draws := s.draws + 1 } (a + 1)
    exact ⟨m, k, h⟩

/-- Free bytes leave every byte outside them alone. -/
theorem State.byteAt_drawBytes_ne (s : State) (fc fc' : FC) (a a' : Word) (n : Nat)
    (h : ∀ k < n, s.cfg.mem.key fc' a' ≠ s.cfg.mem.key fc (a + BitVec.ofNat 32 k)) :
    (s.drawBytes fc a n).byteAt fc' a' = s.byteAt fc' a' := by
  induction n generalizing s a with
  | zero => rfl
  | succ n ih =>
    rw [State.drawBytes, ih]
    · exact State.byteAt_putByte_ne s fc fc' _ (by simpa using h 0 (by omega))
    · intro k hk
      have := h (k + 1) (by omega)
      rwa [Nat.add_comm k 1, BitVec.ofNat_add, ← BitVec.add_assoc] at this

theorem State.left_drawBytes {fc : FC} {a : Word} {n : Nat} (h : .mem fc a n ∈ w) :
    s.Left (s.drawBytes fc a n) w own := by
  have bytes := fun fc' a' => s.byteAt_drawBytes_ne fc fc' a a' n
  obtain ⟨m, k, e⟩ := s.drawBytes_only_mem fc a n
  rw [e] at bytes ⊢
  exact ⟨⟨fun _ _ => rfl, fun _ _ _ => rfl, fun _ _ _ => rfl, fun fc' a' hm => bytes fc' a' (hm fc a n h)⟩,
    rfl, rfl⟩

/-- A target within what a frame lets change: `pc` and the flags are no part of it, and a stack register may change
under its own name. -/
def Target.within (w : List Target) (own : StackReg → Bool) : Target → Prop
  | .pc => True
  | .ccr _ => True
  | .control c => ∀ r, c.stackReg = some r → own r = true
  | x => x ∈ w

theorem State.left_drawTarget {x : Target} (h : x.within w own) : s.Left (s.drawTarget x) w own := by
  cases x with
  | d n => exact (State.left_setD _ h).withCounts _ _
  | a n => exact (State.left_setA _ h).withCounts _ _
  | mem fc a n => exact State.left_drawBytes h
  | pc => exact (State.Left.refl s).withCounts _ _
  | control c => exact (State.left_writeControl _ h).withCounts _ _
  | ccr m => exact (State.left_setCCR _).withCounts _ _

theorem State.left_fetchLeaves {ts : List Target} (h : ∀ x ∈ ts, x.within w own) :
    s.Left (s.fetchLeaves ts) w own := by
  induction ts generalizing s with
  | nil => exact .refl s
  | cons x ts ih =>
    exact (State.left_drawTarget (h x List.mem_cons_self)).trans (ih fun y hy => h y (List.mem_cons_of_mem x hy))

theorem State.left_faultLeaves {ts : List Target} (h : ∀ x ∈ ts, x.within w own) :
    s.Left (s.faultLeaves ts) w own :=
  (State.left_fetchLeaves h).trans ((State.left_setCCR _).withCounts _ _)

/-! ## Flags -/

/-- A target that writes no flag outside a mask of the CCR. -/
def Target.flagsWithin (mask : Half) : Target → Prop
  | .ccr m => m.setWidth 16 &&& ~~~mask = 0#16
  | _ => True

/-- The flags outside a mask, when bits of the CCR within it are replaced. -/
theorem State.setCCR_flags (s : State) {m : Byte} {mask : Half} (v : Byte) (h : m.setWidth 16 &&& ~~~mask = 0#16) :
    (s.setCCR ((s.getCCR &&& ~~~m) ||| (v &&& m))).sr &&& 0x1F#16 &&& ~~~mask = s.sr &&& 0x1F#16 &&& ~~~mask := by
  refine BitVec.eq_of_getLsbD_eq fun i hi => ?_
  have hbit := congrArg (fun x : Half => x.getLsbD i) h
  simp only [BitVec.getLsbD_and, BitVec.getLsbD_not, hi, decide_true, Bool.true_and, BitVec.getLsbD_zero,
    BitVec.getLsbD_setWidth] at hbit ⊢
  rcases Nat.lt_or_ge i 5 with h5 | h5
  · rw [State.getLsbD_setCCR_low _ _ h5]
    simp only [BitVec.getLsbD_or, BitVec.getLsbD_and, BitVec.getLsbD_not, State.getLsbD_getCCR s (by omega : i < 8)]
    cases hm : m.getLsbD i
    · simp [show i < 8 by omega]
    · rw [hm, Bool.true_and] at hbit
      simp [hbit]
  · rw [State.getLsbD_setCCR_high _ _ h5]

theorem State.drawTarget_flags (s : State) {x : Target} {mask : Half} (h : x.flagsWithin mask) :
    (s.drawTarget x).sr &&& 0x1F#16 &&& ~~~mask = s.sr &&& 0x1F#16 &&& ~~~mask := by
  cases x with
  | d n => rfl
  | a n => simp only [State.drawTarget, State.setA_sr]
  | mem fc a n =>
    obtain ⟨m, k, e⟩ := s.drawBytes_only_mem fc a n
    simp only [State.drawTarget, e]
  | pc => rfl
  | control c => simp only [State.drawTarget, State.writeControl_sr]
  | ccr m => exact s.setCCR_flags _ h

theorem State.fetchLeaves_flags (s : State) {ts : List Target} {mask : Half} (h : ∀ x ∈ ts, x.flagsWithin mask) :
    (s.fetchLeaves ts).sr &&& 0x1F#16 &&& ~~~mask = s.sr &&& 0x1F#16 &&& ~~~mask := by
  induction ts generalizing s with
  | nil => rfl
  | cons x ts ih =>
    exact (ih (s.drawTarget x) fun y hy => h y (List.mem_cons_of_mem x hy)).trans
      (s.drawTarget_flags (h x List.mem_cons_self))

end Sys2Proof.Machine
end

section
/-! SUPPORT. How a rule ends early: the operations that stop with an access that fails, and the first access or the
first extension word of an instruction as the one that does (R71, R72, R78, R132, R134). -/

namespace Sys2Proof.Machine

/-! ## Operations that stop -/

/-- An operation ends early, with the reason `x`. -/
def StopsWith {α : Type} (x : Stop) (m : Op α) (s : State) : Prop := ∃ t, m s = .error x t

namespace StopsWith

variable {α β : Type} {x : Stop} {m : Op α} {k : α → Op β} {s t : State} {a : α}

theorem bind (h : StopsWith x m s) : StopsWith x (m >>= k) s := by
  obtain ⟨t, ht⟩ := h
  exact ⟨t, bind_error ht⟩

theorem after (hm : m s = .ok a t) (h : StopsWith x (k a) t) : StopsWith x (m >>= k) s := by
  obtain ⟨u, hu⟩ := h
  exact ⟨u, (bind_ok hm).trans hu⟩

end StopsWith

/-! ## Accesses that fail -/

/-- An access fails with `e`: `Address_error` for a word or a long at an odd address, else `Bus_error` where the host
refuses (R71, R72). -/
inductive AccessFails (mm : MemMap) (it : Intent) (fc : FC) (a : Word) (n : Nat) : Exc → Prop
  | odd (h : n ≠ 1 ∧ odd a = true) : AccessFails mm it fc a n .addressError
  | refused (h : ¬ (n ≠ 1 ∧ Machine.odd a = true)) (hr : mm.answer it fc a n = .refused) :
      AccessFails mm it fc a n .busError

section
variable {s : State} {it : Intent} {fc : FC} {a v : Word} {n : Nat} {e : Exc} {loc : Loc} {sz : Size}

theorem memReadFC_stops (h : AccessFails s.cfg.mem .read fc a n e) : StopsWith (.exc e) (memReadFC fc a n) s := by
  cases h with
  | odd h => exact ⟨s, memReadFC_odd h⟩
  | refused h hr => exact ⟨s, memReadFC_refused h hr⟩

theorem memWriteFC_stops (h : AccessFails s.cfg.mem .write fc a n e) : StopsWith (.exc e) (memWriteFC fc a n v) s := by
  cases h with
  | odd h => exact ⟨s, memWriteFC_odd h⟩
  | refused h hr => exact ⟨s, memWriteFC_refused h hr⟩

theorem memRead_stops (h : AccessFails s.cfg.mem .read s.dataFC a n e) : StopsWith (.exc e) (memRead a n) s :=
  memReadFC_stops h

theorem memWrite_stops (h : AccessFails s.cfg.mem .write s.dataFC a n e) : StopsWith (.exc e) (memWrite a n v) s :=
  memWriteFC_stops h

theorem readEA_stops (ha : loc.access .read sz = some (it, fc, a, n)) (h : AccessFails s.cfg.mem it fc a n e) :
    StopsWith (.exc e) (readEA loc sz) s := by
  cases loc with
  | mem fc' a' =>
    cases ha
    exact memReadFC_stops h
  | dreg n | areg n | imm v => cases ha

theorem writeEA_stops (ha : loc.access .write sz = some (it, fc, a, n)) (h : AccessFails s.cfg.mem it fc a n e) :
    StopsWith (.exc e) (writeEA loc sz v) s := by
  cases loc with
  | mem fc' a' =>
    cases ha
    exact memWriteFC_stops h
  | dreg n | areg n | imm v => cases ha

theorem pushLong_stops (h : AccessFails s.cfg.mem .write s.dataFC (s.getSP - 4) 4 e) :
    StopsWith (.exc e) (pushLong v) s := by
  refine .after rfl (.after rfl (memWrite_stops ?_))
  rw [State.setSP_cfg, State.dataFC_setSP]
  exact h

theorem popLong_stops (h : AccessFails s.cfg.mem .read s.dataFC s.getSP 4 e) : StopsWith (.exc e) popLong s :=
  .after rfl (memRead_stops h).bind

end

/-! ## The first access and the first word of an instruction -/

/-- The first operand access of the rule fails, with every extension word at hand and none of them refused. -/
structure OperandFails (s : State) (i : Instr) (e : Exc) : Prop where
  words : s.started.canFetch ((encode i).length - 1) = true
  briefs : s.cfg.model = .mc68020 → ∀ ea ∈ effectiveAddresses i, refusedBrief ea = false
  access : ∃ it fc a n, firstAccess s i = some (it, fc, a, n) ∧ AccessFails s.cfg.mem it fc a n e

/-- The first extension word cannot be fetched; MOVE's, where it belongs to the source (R134). -/
structure WordFails (s : State) (i : Instr) (e : Exc) : Prop where
  words : 1 < (encode i).length
  source : ∀ sz src, moveSource i = some (sz, src) → eaWordCount sz src ≠ 0
  fetch : s.fetchWordAt (s.pc + 2) = .error e

/-- What fails first in an instruction, and the reason for which its rule then ends. -/
inductive FirstFails (s : State) (i : Instr) : Stop → Prop
  | operand {e : Exc} (h : OperandFails s i e) : FirstFails s i (.exc e)
  | word {e : Exc} (h : WordFails s i e) : FirstFails s i (.fetch e)

section
variable {α : Type} {s : State} {i : Instr} {e : Exc} {x : Stop} {ea : Ea} {sz : Size} {m : Nat} {v : Word}

theorem State.canFetch_add {n : Nat} (h : s.canFetch (m + n) = true) : (s.skip m).canFetch n = true :=
  State.canFetch_iff.2 fun k hk => by
    have := State.canFetch_iff.1 h (m + k) (by omega)
    rwa [Nat.mul_add, BitVec.ofNat_add, ← BitVec.add_assoc] at this

/-! ### The first operand access -/

namespace OperandFails
variable (h : OperandFails s i e)
include h

/-- An access that the instruction is known to make first is the one that fails. -/
theorem fails {it : Intent} {fc : FC} {a : Word} {n : Nat} (ha : firstAccess s i = some (it, fc, a, n)) :
    AccessFails s.cfg.mem it fc a n e := by
  obtain ⟨_, _, _, _, hf, hfail⟩ := h.access
  cases ha.symm.trans hf
  exact hfail

theorem canFetch {n : Nat} (hl : n < (encode i).length) : s.started.canFetch n = true :=
  State.canFetch_of_le h.words (by omega)

/-- The words of an effective address that follows `m` others are at hand. -/
theorem ready (hl : m + eaWordCount sz ea < (encode i).length) (hm : ea ∈ effectiveAddresses i) :
    (s.started.skip m).eaReady ea sz = true := by
  have hw : (s.started.skip m).canFetch (eaWordCount sz ea) = true :=
    State.canFetch_add (h.canFetch hl)
  have hb : (s.cfg.model.is20 && refusedBrief ea) = false := by
    cases h20 : s.cfg.model.is20 with
    | false => rfl
    | true => exact h.briefs (Model.is20_iff.1 h20) ea hm
  simp only [State.eaReady, hw, Bool.true_and]
  exact congrArg Bool.not hb

theorem calcEA_bind {k : Loc → Op α} (hl : m + eaWordCount sz ea < (encode i).length)
    (hm : ea ∈ effectiveAddresses i)
    (hk : StopsWith x (k ((s.started.skip m).eaLoc ea sz)) ((s.started.skip m).afterEA ea sz)) :
    StopsWith x (calcEA ea sz >>= k) (s.started.skip m) := .after (calcEA_ok (h.ready hl hm)) hk

/-- The access to the location of an effective address. -/
theorem atLocation {it : Intent} (ha : firstAccess s i = s.eaAccess it m ea sz) :
    AccessFails s.cfg.mem it ((s.started.skip m).eaLoc ea sz).fc ((s.started.skip m).eaLoc ea sz).addr sz.bytes e := by
  obtain ⟨_, _, _, _, hf, hfail⟩ := h.access
  have hloc : ((s.started.skip m).eaLoc ea sz).access it sz = _ := ha.symm.trans hf
  cases hl : (s.started.skip m).eaLoc ea sz with
  | mem fc a =>
    rw [hl] at hloc
    cases hloc
    exact hfail
  | dreg n | areg n | imm v =>
    rw [hl] at hloc
    cases hloc

theorem readEA (ha : firstAccess s i = s.eaAccess .read m ea sz) :
    StopsWith (.exc e) (readEA ((s.started.skip m).eaLoc ea sz) sz) ((s.started.skip m).afterEA ea sz) := by
  obtain ⟨_, _, _, _, hf, hfail⟩ := h.access
  exact readEA_stops (ha.symm.trans hf) (by rw [State.afterEA_cfg]; exact hfail)

theorem writeEA (ha : firstAccess s i = s.eaAccess .write m ea sz) :
    StopsWith (.exc e) (writeEA ((s.started.skip m).eaLoc ea sz) sz v) ((s.started.skip m).afterEA ea sz) := by
  obtain ⟨_, _, _, _, hf, hfail⟩ := h.access
  exact writeEA_stops (ha.symm.trans hf) (by rw [State.afterEA_cfg]; exact hfail)

theorem fetchEA (ha : firstAccess s i = s.eaAccess .read m ea sz)
    (hl : m + eaWordCount sz ea < (encode i).length) (hm : ea ∈ effectiveAddresses i) :
    StopsWith (.exc e) (fetchEA ea sz) (s.started.skip m) :=
  h.calcEA_bind hl hm (h.readEA ha)

theorem openEA (ha : firstAccess s i = s.eaAccess .read m ea sz)
    (hl : m + eaWordCount sz ea < (encode i).length) (hm : ea ∈ effectiveAddresses i) :
    StopsWith (.exc e) (openEA ea sz) (s.started.skip m) :=
  h.calcEA_bind hl hm (h.readEA ha).bind

/-- An instruction that makes no access does not fail at one. -/
theorem elim {C : Prop} (ha : firstAccess s i = none) : C := by
  obtain ⟨_, _, _, _, hf, -⟩ := h.access
  cases ha.symm.trans hf

end OperandFails

/-! ### The first extension word -/

namespace WordFails
variable (h : WordFails s i e)
include h

theorem fetchExt : StopsWith (.fetch e) fetchExt s.started := ⟨_, fetchExt_error (s := s.started) h.fetch⟩

theorem takeExt {n : Nat} (hn : n ≠ 0) : StopsWith (.fetch e) (takeExt n) s.started := by
  cases n with
  | zero => exact absurd rfl hn
  | succ n => exact h.fetchExt.bind

theorem calcEA (hn : eaWordCount sz ea ≠ 0) : StopsWith (.fetch e) (calcEA ea sz) s.started :=
  .after rfl (h.takeExt hn).bind

end WordFails

/-! ### Whichever it is -/

namespace FirstFails
variable (h : FirstFails s i x)
include h

/-- An instruction of one word fails at its access, if it makes one. -/
theorem operand_of_length (hl : (encode i).length = 1) : ∃ e, x = .exc e ∧ OperandFails s i e := by
  cases h with
  | operand h => exact ⟨_, rfl, h⟩
  | word h => exact absurd h.words (by omega)

/-- Nothing fails first in an instruction of one word that makes no access. -/
theorem elim {C : Prop} (ha : firstAccess s i = none) (hl : (encode i).length = 1) : C := by
  obtain ⟨e, -, h⟩ := h.operand_of_length hl
  exact h.elim ha

theorem fetchExt_bind {k : Unit → Op α} (hl : 1 < (encode i).length)
    (hk : ∀ e, OperandFails s i e → StopsWith (.exc e) (k ()) (s.started.skip 1)) :
    StopsWith x (fetchExt >>= k) s.started := by
  cases h with
  | operand h => exact .after (fetchExt_ok_of_canFetch (h.canFetch hl)) (hk _ h)
  | word h => exact h.fetchExt.bind

theorem calcEA_bind {k : Loc → Op α} (hl : (encode i).length = 1 + 0 + eaWordCount sz ea)
    (hm : ea ∈ effectiveAddresses i)
    (hk : ∀ e, OperandFails s i e →
      StopsWith (.exc e) (k ((s.started.skip 0).eaLoc ea sz)) ((s.started.skip 0).afterEA ea sz)) :
    StopsWith x (calcEA ea sz >>= k) s.started := by
  cases h with
  | operand h =>
    have := h.calcEA_bind (by omega) hm (hk _ h)
    rwa [State.skip_zero] at this
  | word h => exact (h.calcEA (by have := h.words; omega)).bind

theorem fetchEA (ha : firstAccess s i = s.eaAccess .read 0 ea sz)
    (hl : (encode i).length = 1 + 0 + eaWordCount sz ea) (hm : ea ∈ effectiveAddresses i) :
    StopsWith x (fetchEA ea sz) s.started :=
  h.calcEA_bind hl hm fun _ h => h.readEA ha

theorem openEA (ha : firstAccess s i = s.eaAccess .read 0 ea sz)
    (hl : (encode i).length = 1 + 0 + eaWordCount sz ea) (hm : ea ∈ effectiveAddresses i) :
    StopsWith x (openEA ea sz) s.started :=
  h.calcEA_bind hl hm fun _ h => (h.readEA ha).bind

theorem fetchImm_bind {k : Word → Op α} (hl : immWords sz < (encode i).length)
    (hk : ∀ e, OperandFails s i e → StopsWith (.exc e) (k v) (s.started.skip (immWords sz))) :
    StopsWith x (Machine.fetchEA (.imm v) sz >>= k) s.started := by
  cases h with
  | operand h => exact .after (fetchImm_ok (h.canFetch hl)) (hk _ h)
  | word h => exact (h.calcEA (ea := .imm v) (by cases sz <;> exact Nat.succ_ne_zero _)).bind.bind

end FirstFails

end

end Sys2Proof.Machine
end

section
/-! SUPPORT. Every instruction whose first access or first extension word fails is a cycle whose rule ends there, and
what the cycle then frees is within what the instruction writes (R128, R135, D23). -/

namespace Sys2Proof.Machine

/-! ## What an instruction writes, without its flags -/

/-- A register, bytes of memory, or `pc`: what `instrWrites` lists. -/
def Target.plain : Target → Bool
  | .control _ => false
  | .ccr _ => false
  | _ => true

theorem eaSideTargets_plain (ea : Ea) : (eaSideTargets ea).all Target.plain = true := by cases ea <;> rfl

theorem gregTargets_plain (r : GReg) : (gregTargets r).all Target.plain = true := by cases r <;> rfl

theorem flatMap_gregTargets_plain (rs : List GReg) : (rs.flatMap gregTargets).all Target.plain = true := by
  simp only [List.all_flatMap, gregTargets_plain, List.all_eq_true, implies_true]

theorem eaTargets_plain (s : State) (ea : Ea) (sz : Size) : (s.eaTargets ea sz).all Target.plain = true := by
  have hloc : ∀ loc : Loc, (loc.targets sz).all Target.plain = true := fun loc => by cases loc <;> rfl
  rw [State.eaTargets, List.all_append, eaSideTargets_plain, hloc, Bool.and_self]

theorem pairTargets_plain (s : State) (src dst : Ea) (sz : Size) :
    (s.pairTargets src dst sz).all Target.plain = true := by
  rw [State.pairTargets, List.all_append, eaSideTargets_plain, eaTargets_plain, Bool.and_self]

theorem alternateTargets_plain (fc : FC) (a : Word) (n : Nat) :
    (alternateTargets fc a n).all Target.plain = true := by
  simp [alternateTargets, Target.plain]

theorem append_plain {xs ys : List Target} (hx : xs.all Target.plain = true) (hy : ys.all Target.plain = true) :
    (xs ++ ys).all Target.plain = true := by rw [List.all_append, hx, hy, Bool.and_self]

theorem instrWrites_plain (s : State) (i : Instr) : (instrWrites s i).all Target.plain = true := by
  cases i
  case ori | andi | subi | addi | eori | bchgI | bclrI | bsetI | bchgD | bclrD | bsetD | negx | neg | notEa | moveFromSr
      | clr | moveFromCcr | nbcd | tas | addq | subq | scc | orToMem | subToMem | eor | andToMem | addToMem | asrMem
      | aslMem | lsrMem | lslMem | roxrMem | roxlMem | rorMem | rolMem =>
    exact eaTargets_plain _ _ _
  case cmpi | btstI | btstD | chk | moveToCcr | moveToSr | tst | cmp | cmpa => exact eaSideTargets_plain _
  case moveaL | moveaW | orToReg | divu | divs | subToReg | suba | andToReg | mulu | muls | addToReg | adda =>
    exact append_plain (eaSideTargets_plain _) rfl
  case moveB | moveL | moveW | sbcdMem | abcdMem | subxMem | addxMem => exact pairTargets_plain _ _ _ _
  case moves toMem r ea =>
    refine append_plain (eaSideTargets_plain _) ?_
    cases toMem with
    | true => rfl
    | false => exact gregTargets_plain r
  case movepStoreW | movepStoreL => exact alternateTargets_plain _ _ _
  case movemFromMem => exact flatMap_gregTargets_plain _
  case movemFromPostinc => exact append_plain (flatMap_gregTargets_plain _) rfl
  case movecFrom r code => exact gregTargets_plain r
  case bccL c => exact (by split <;> rfl : (if c = .f then s.pushTargets ++ [.pc] else [.pc]).all Target.plain = true)
  all_goals rfl

theorem within_instrWrites (s : State) (i : Instr) (own : StackReg → Bool) {x : Target} (h : x ∈ instrWrites s i) :
    x.within (instrWrites s i) own ∧ ∀ mask, x.flagsWithin mask := by
  have hp := List.all_eq_true.1 (instrWrites_plain s i) x h
  cases x with
  | d n | a n | mem fc a n => exact ⟨h, fun _ => trivial⟩
  | pc => exact ⟨trivial, fun _ => trivial⟩
  | control c | ccr m => cases hp

/-! ## A cycle that ends early -/

/-- The instruction is one cycle, its rule ends early with the reason `x`, and what is then given free values is within
what the instruction writes: the registers and bytes of `instrWrites`, its own stack register, and the flags of
`flagMask`. -/
def StopsBy (i : Instr) (s : State) (x : Stop) : Prop :=
  ∃ ts rule, exec i s = cycle ts rule s ∧ StopsWith x rule s.started ∧
    ∀ y ∈ ts, y.within (instrWrites s i) (fun r => writesStackReg r i) ∧ y.flagsWithin (flagMask i)

namespace StopsBy

variable {i : Instr} {s : State} {x : Stop} {rule : Op Unit}

/-- A cycle that frees what the instruction writes, and no flag. -/
theorem plain (hc : exec i s = cycle (instrWrites s i) rule s) (h : StopsWith x rule s.started) : StopsBy i s x :=
  ⟨_, _, hc, h, fun _ hy => (within_instrWrites s i _ hy).imp_right fun h => h _⟩

/-- A cycle that frees what the instruction writes, with its flags. -/
theorem withFlags {m : Byte} (hm : flagMask i = m.setWidth 16)
    (hc : exec i s = cycle (.ccr m :: instrWrites s i) rule s) (h : StopsWith x rule s.started) : StopsBy i s x := by
  refine ⟨_, _, hc, h, fun y hy => ?_⟩
  rcases List.mem_cons.1 hy with rfl | hy
  · exact ⟨trivial, hm ▸ BitVec.and_not_self _⟩
  · exact (within_instrWrites s i _ hy).imp_right fun h => h _

end StopsBy

/-! ## Lengths (R101, R107) -/

theorem words_length (sz : Size) (ea : Ea) : (ea.words sz).length = eaWordCount sz ea := by
  cases ea
  case imm v => cases sz <;> rfl
  all_goals rfl

theorem encEa_length (base : Nat) (own : List Half) (sz : Size) (ea : Ea) :
    (encEa base own sz ea).length = 1 + own.length + eaWordCount sz ea := by
  rw [encEa, List.length_cons, List.length_append, words_length, Nat.add_comm, Nat.add_assoc]

theorem encImm_length (base : Nat) (sz : Size) (v : Word) (ea : Ea) :
    (encEa base (Sys2Proof.immWords sz v) sz ea).length = 1 + immWords sz + eaWordCount sz ea := by
  rw [encEa_length, show (Sys2Proof.immWords sz v).length = immWords sz by cases sz <;> rfl]

/-- The operand of a bit instruction has as many words at either of its sizes (R340). -/
theorem encBit_length (base : Nat) (own : List Half) (ea : Ea) :
    (encEa base own .b ea).length = 1 + own.length + eaWordCount (bitSize ea) ea := by
  rw [encEa_length, show eaWordCount .b ea = eaWordCount (bitSize ea) ea by cases ea <;> rfl]

theorem encMove_length (base : Nat) (sz : Size) (src dst : Ea) :
    (encMove base sz src dst).length = 1 + eaWordCount sz src + eaWordCount sz dst := by
  rw [encMove, List.length_cons, List.length_append, words_length, words_length, Nat.add_comm, Nat.add_assoc]

theorem one_lt_encEa_length (base : Nat) (w : Half) (ws : List Half) (sz : Size) (ea : Ea) :
    1 < (encEa base (w :: ws) sz ea).length := by
  rw [encEa_length, List.length_cons]
  omega

theorem immWords_lt_encImm_length (base : Nat) (sz : Size) (v : Word) (ea : Ea) :
    immWords sz < (encEa base (Sys2Proof.immWords sz v) sz ea).length := by
  rw [encImm_length]
  omega

theorem words_lt_encEa_length (base : Nat) (w : Half) (sz : Size) (ea : Ea) :
    1 + eaWordCount sz ea < (encEa base [w] sz ea).length := by
  rw [encEa_length, List.length_singleton]
  omega

theorem words_lt_encImm_length (base : Nat) (sz : Size) (v : Word) (ea : Ea) :
    immWords sz + eaWordCount sz ea < (encEa base (Sys2Proof.immWords sz v) sz ea).length := by
  rw [encImm_length]
  omega

theorem words_lt_encBit_length (base : Nat) (w : Half) (ea : Ea) :
    1 + eaWordCount (bitSize ea) ea < (encEa base [w] .b ea).length := by
  rw [encBit_length, List.length_singleton]
  omega

/-! ## The families with rules of their own -/

section
variable {s : State} {i : Instr} {x : Stop} {e : Exc}

/-- A location that is no memory is read at once. -/
theorem State.valueAt_of_access_none {t : State} {it : Intent} {loc : Loc} {sz : Size} (h : loc.access it sz = none) :
    ∃ v, t.valueAt loc sz = some v := by
  cases loc with
  | mem fc a => cases h
  | dreg n | areg n | imm v => exact ⟨_, rfl⟩

/-- An effective address that is no memory has no side effect. -/
theorem State.afterEA_of_access_none {t : State} {it : Intent} {ea : Ea} {sz : Size}
    (h : (t.eaLoc ea sz).access it sz = none) : t.afterEA ea sz = t.skip (eaWordCount sz ea) := by
  cases ea
  case postinc | predec => cases h
  all_goals rfl

theorem State.moveAccess_of_some {sz : Size} {src dst : Ea} {y : Intent × FC × Word × Nat}
    (h : s.eaAccess .read 0 src sz = some y) : s.moveAccess sz src dst = s.eaAccess .read 0 src sz := by
  simp only [State.moveAccess, h]

theorem State.moveAccess_of_none {sz : Size} {src dst : Ea} (h : s.eaAccess .read 0 src sz = none)
    (hskip : s.started.afterEA src sz = s.started.skip (eaWordCount sz src)) :
    s.moveAccess sz src dst = s.eaAccess .write (eaWordCount sz src) dst sz := by
  simp only [State.moveAccess, h, hskip]
  rfl

/-- MOVE: the read of the source, or where it is no memory the write of the destination (R134, R210). -/
theorem FirstFails.moveRule {sz : Size} {src dst : Ea} (h : FirstFails s i x) (hi : moveSource i = some (sz, src))
    (ha : firstAccess s i = s.moveAccess sz src dst)
    (hl : (encode i).length = 1 + eaWordCount sz src + eaWordCount sz dst)
    (hm : effectiveAddresses i = [src, dst]) : StopsWith x (moveRule sz src dst) s.started := by
  cases h with
  | word h => exact (h.calcEA (h.source sz src hi)).bind.bind
  | operand h =>
    have hs : src ∈ effectiveAddresses i := hm ▸ List.mem_cons_self
    have hd : dst ∈ effectiveAddresses i := hm ▸ List.mem_cons_of_mem src List.mem_cons_self
    cases hsrc : s.eaAccess .read 0 src sz with
    | some y =>
      have := h.fetchEA (ha.trans (State.moveAccess_of_some hsrc)) (by omega) hs
      rw [State.skip_zero] at this
      exact this.bind
    | none =>
      have hnone := hsrc
      rw [State.eaAccess, State.skip_zero] at hnone
      have hskip := State.afterEA_of_access_none hnone
      have hready := h.ready (m := 0) (sz := sz) (by omega) hs
      rw [State.skip_zero] at hready
      obtain ⟨v, hv⟩ := State.valueAt_of_access_none (t := s.started.afterEA src sz) hnone
      refine .after (fetchEA_ok hready hv) (hskip ▸ h.calcEA_bind (by omega) hd ?_)
      exact (h.writeEA (ha.trans (State.moveAccess_of_none hsrc hskip))).bind

/-- A control mode has no side effect. -/
theorem State.afterEA_of_control {t : State} {ea : Ea} {sz : Size} (h : ea.ok .control sz = true) :
    t.afterEA ea sz = t.skip (eaWordCount sz ea) := by
  cases ea
  case postinc | predec => cases h
  all_goals rfl

theorem readG_run (r : GReg) (t : State) : readG r t = .ok (t.getG r) t := by cases r <;> rfl

/-- A transfer of at least one register stops at its first access. -/
theorem storeRegs_stops {t : State} {sz : Size} {fc : FC} {rs : List GReg} {a : Word} (hr : rs ≠ [])
    (h : AccessFails t.cfg.mem .write fc a sz.bytes e) : StopsWith (.exc e) (storeRegs sz fc rs a) t := by
  cases rs with
  | nil => exact absurd rfl hr
  | cons r rs => exact .after (readG_run r t) (memWriteFC_stops h).bind

theorem storeRegsDown_stops {t : State} {sz : Size} {an : RegNo} {count : Nat} {rs : List GReg} {a : Word}
    (hr : rs ≠ []) (h : AccessFails t.cfg.mem .write t.dataFC (a - BitVec.ofNat 32 sz.bytes) sz.bytes e) :
    StopsWith (.exc e) (storeRegsDown sz an count rs a) t := by
  cases rs with
  | nil => exact absurd rfl hr
  | cons r rs =>
    have hv : storedValue sz an count r t = .ok _ t := (bind_ok (readG_run r t)).trans rfl
    exact .after hv (memWrite_stops h).bind

theorem loadRegs_stops {t : State} {sz : Size} {fc : FC} {rs : List GReg} {a : Word} (hr : rs ≠ [])
    (h : AccessFails t.cfg.mem .read fc a sz.bytes e) : StopsWith (.exc e) (loadRegs sz fc rs a) t := by
  cases rs with
  | nil => exact absurd rfl hr
  | cons r rs => exact (memReadFC_stops h).bind

theorem loadAlternate_stops {t : State} {n : Nat} {a : Word} (h : AccessFails t.cfg.mem .read t.dataFC a 1 e) :
    StopsWith (.exc e) (loadAlternate (n + 1) a) t := (memRead_stops h).bind

theorem storeAlternate_stops {t : State} {n : Nat} {v a : Word} (h : AccessFails t.cfg.mem .write t.dataFC a 1 e) :
    StopsWith (.exc e) (storeAlternate v (n + 1) a) t := (memWrite_stops h).bind

/-- The two orders of a mask select as many registers. -/
theorem maskRegsPredec_ne_nil {mask : Half} (h : maskRegs mask ≠ []) : maskRegsPredec mask ≠ [] := by
  simpa only [maskRegs, maskRegsPredec, Ne, List.map_eq_nil_iff] using h

theorem refuse32_ok {d : BranchDisp} (h : (!(s.cfg.model.is20 && d.isFF)) = true) : refuse32 d s = .ok () s := by
  rw [Bool.not_eq_true'] at h
  simp only [refuse32, readModel_bind, h, Bool.false_eq_true, if_false, pure_run]

end

end Sys2Proof.Machine
end

section
/-! SUPPORT. Every instruction, by what its rule does first: gates that pass, then an extension word, an effective
address, or an access to the stack or to the first of several registers' places. -/

namespace Sys2Proof.Machine

/-! ## The instructions with a shape of their own -/

/-- MOVEC fetches its word after its gates (R413). -/
theorem FirstFails.movecStart {s : State} {i : Instr} {x : Stop} {code : BitVec 12} {a : Word} (h : FirstFails s i x)
    (h10 : s.cfg.model.atLeast10 = true) (hs : s.supervisor = true) (hl : 1 < (encode i).length)
    (hn : firstAccess s i = none) : StopsWith x (movecStart code a) s.started :=
  .after (from68010_ok h10) (.after (privileged_ok hs) (h.fetchExt_bind hl fun _ h => h.elim hn))

/-- A branch fetches its displacement, if it is a word (R370). -/
theorem FirstFails.branchRule {s : State} {i : Instr} {x : Stop} {c : Cond} {d : BranchDisp} (h : FirstFails s i x)
    (hd : (!(s.cfg.model.is20 && d.isFF)) = true) (hl : (encode i).length = 1 + branchWords d)
    (hn : firstAccess s i = none) : StopsWith x (do refuse32 d; branchRule c d) s.started := by
  refine .after (refuse32_ok hd) (.after rfl ?_)
  cases d with
  | short b => exact h.elim hn hl
  | word w => exact (h.fetchExt_bind (by rw [hl]; exact Nat.lt_succ_self 1) fun _ h => h.elim hn).bind

theorem FirstFails.bsrRule {s : State} {x : Stop} {d : BranchDisp} (h : FirstFails s (.bsr d) x)
    (hd : (!(s.cfg.model.is20 && d.isFF)) = true) : StopsWith x (do refuse32 d; bsrRule d) s.started := by
  refine .after (refuse32_ok hd) (.after rfl ?_)
  cases d with
  | short b =>
    obtain ⟨e, rfl, ho⟩ := h.operand_of_length rfl
    exact .after rfl (.after rfl (pushLong_stops (s := s.started) (ho.fails rfl)).bind)
  | word w =>
    cases h with
    | word h => exact h.fetchExt.bind.bind
    | operand h =>
      exact .after (.trans (bind_ok (fetchExt_ok_of_canFetch (h.canFetch (Nat.lt_succ_self 1)))) rfl)
        (.after rfl (pushLong_stops (s := s.started.skip 1) (h.fails rfl)).bind)

theorem FirstFails.stopsBy_moves {s : State} {x : Stop} {sz : Size} {toMem : Bool} {r : GReg} {ea : Ea}
    (h : FirstFails s (.moves sz toMem r ea) x) (h10 : s.cfg.model.atLeast10 = true) (hs : s.supervisor = true) :
    StopsBy (.moves sz toMem r ea) s x := by
  refine .plain rfl (.after (from68010_ok h10) (.after (privileged_ok hs)
    (h.fetchExt_bind (one_lt_encEa_length _ _ _ _ _) fun _ h => .after (readG_run r _)
      (h.calcEA_bind (words_lt_encEa_length _ _ _ _) List.mem_cons_self ?_))))
  cases toMem with
  | true => exact memWriteFC_stops (by rw [State.afterEA_cfg]; exact h.fails rfl)
  | false => exact (memReadFC_stops (by rw [State.afterEA_cfg]; exact h.fails rfl)).bind

theorem FirstFails.stopsBy_movemToMem {s : State} {x : Stop} {sz : Size} {mask : Half} {ea : Ea}
    (h : FirstFails s (.movemToMem sz mask ea) x) : StopsBy (.movemToMem sz mask ea) s x := by
  refine .plain rfl (h.fetchExt_bind (one_lt_encEa_length _ _ _ _ _) fun _ h =>
    h.calcEA_bind (words_lt_encEa_length _ _ _ _) List.mem_cons_self ?_)
  by_cases hr : maskRegs mask = []
  · exact h.elim (if_pos hr)
  · exact storeRegs_stops hr (by rw [State.afterEA_cfg]; exact h.atLocation (if_neg hr))

theorem FirstFails.stopsBy_movemFromMem {s : State} {x : Stop} {sz : Size} {mask : Half} {ea : Ea}
    (h : FirstFails s (.movemFromMem sz mask ea) x) : StopsBy (.movemFromMem sz mask ea) s x := by
  refine .plain rfl (h.fetchExt_bind (one_lt_encEa_length _ _ _ _ _) fun _ h =>
    h.calcEA_bind (words_lt_encEa_length _ _ _ _) List.mem_cons_self ?_)
  by_cases hr : maskRegs mask = []
  · exact h.elim (if_pos hr)
  · exact (loadRegs_stops hr (by rw [State.afterEA_cfg]; exact h.atLocation (if_neg hr))).bind

theorem FirstFails.stopsBy_movemToPredec {s : State} {x : Stop} {sz : Size} {mask : Half} {an : RegNo}
    (h : FirstFails s (.movemToPredec sz mask an) x) : StopsBy (.movemToPredec sz mask an) s x := by
  refine .plain rfl (h.fetchExt_bind (Nat.lt_succ_self 1) fun _ h => .after rfl ?_)
  by_cases hr : maskRegs mask = []
  · exact h.elim (if_pos hr)
  · exact (storeRegsDown_stops (t := s.started.skip 1) (maskRegsPredec_ne_nil hr) (h.fails (if_neg hr))).bind

theorem FirstFails.stopsBy_movemFromPostinc {s : State} {x : Stop} {sz : Size} {mask : Half} {an : RegNo}
    (h : FirstFails s (.movemFromPostinc sz mask an) x) : StopsBy (.movemFromPostinc sz mask an) s x := by
  refine .plain rfl (h.fetchExt_bind (Nat.lt_succ_self 1) fun _ h => .after rfl ?_)
  by_cases hr : maskRegs mask = []
  · exact h.elim (if_pos hr)
  · exact (loadRegs_stops (t := s.started.skip 1) hr (h.fails (if_neg hr))).bind

/-- MOVEC frees only the register its code names, and only where the code is valid (R413, R414). -/
theorem FirstFails.stopsBy_movecFrom {s : State} {x : Stop} {r : GReg} {code : BitVec 12}
    (h : FirstFails s (.movecFrom r code) x) (h10 : s.cfg.model.atLeast10 = true) (hs : s.supervisor = true) :
    StopsBy (.movecFrom r code) s x := by
  refine ⟨_, _, rfl, (h.movecStart h10 hs (Nat.lt_succ_self 1) rfl).bind, fun y hy => ?_⟩
  split at hy
  · exact (within_instrWrites s (.movecFrom r code) _ hy).imp_right fun h => h _
  · cases hy

theorem FirstFails.stopsBy_movecTo {s : State} {x : Stop} {r : GReg} {code : BitVec 12}
    (h : FirstFails s (.movecTo r code) x) (h10 : s.cfg.model.atLeast10 = true) (hs : s.supervisor = true) :
    StopsBy (.movecTo r code) s x := by
  refine ⟨_, _, rfl, (h.movecStart h10 hs (Nat.lt_succ_self 1) rfl).bind, fun y hy => ?_⟩
  obtain ⟨c, hc, rfl⟩ := List.mem_map.1 hy
  have hcode : controlRegOf code = some c := (Option.filter_eq_some_iff.1 (Option.mem_toList.1 hc)).1
  refine ⟨fun q hq => ?_, trivial⟩
  cases c
  case usp | isp | msp =>
    cases hq
    exact decide_eq_true hcode
  all_goals cases hq

/-! ## Every instruction -/

/-- Whatever fails first in an instruction ends its rule. The cases are those of the rules' first operations. -/
theorem FirstFails.stopsBy {s : State} {i : Instr} {x : Stop} (h : FirstFails s i x) (hwf : i.wf = true)
    (hmodel : i.onModel s.cfg.model = true) (hpriv : privilegedRow s.cfg.model i = true → s.supervisor = true) :
    StopsBy i s x := by
  cases i
  case swap | bkpt | extW | extL | illegal | trap | moveToUsp | moveFromUsp | reset | nop | trapv | moveq | sbcdReg
      | subxReg | lineA | abcdReg | addxReg | exgDD | exgAA | exgDA | asrReg | aslReg | lsrReg | lslReg | roxrReg
      | roxlReg | rorReg | rolReg | lineF | chk2Cmp2 | cas | rtm | callm | chkL | linkL | extbL | mulL | divL | trapcc
      | pack | unpk | bitField | tst20 | cmpi20 | bccL =>
    exact h.elim rfl rfl
  case ori | andi | subi | addi | eori =>
    exact .withFlags rfl rfl (h.fetchImm_bind (immWords_lt_encImm_length _ _ _ _) fun _ h =>
      (h.openEA rfl (words_lt_encImm_length _ _ _ _) List.mem_cons_self).bind)
  case cmpi =>
    exact .withFlags rfl rfl (h.fetchImm_bind (immWords_lt_encImm_length _ _ _ _) fun _ h =>
      (h.fetchEA rfl (words_lt_encImm_length _ _ _ _) List.mem_cons_self).bind)
  case btstI | bchgI | bclrI | bsetI =>
    exact .withFlags rfl rfl (h.fetchExt_bind (one_lt_encEa_length _ _ _ _ _) fun _ h =>
      (h.openEA rfl (words_lt_encBit_length _ _ _) List.mem_cons_self).bind.bind)
  case btstD | bchgD | bclrD | bsetD =>
    exact .withFlags rfl rfl (.after rfl (h.openEA rfl (encBit_length _ _ _) List.mem_cons_self).bind.bind)
  case negx | neg | notEa | nbcd | tas | orToMem | subToMem | eor | andToMem | addToMem | asrMem | aslMem | lsrMem
      | lslMem | roxrMem | roxlMem | rorMem | rolMem =>
    exact .withFlags rfl rfl (h.openEA rfl (encEa_length _ _ _ _) List.mem_cons_self).bind
  case addq sz q ea | subq sz q ea =>
    cases ea
    case areg n => exact h.elim rfl rfl
    all_goals exact .withFlags rfl rfl (h.openEA rfl (encEa_length _ _ _ _) List.mem_cons_self).bind
  case chk | moveToCcr | tst | orToReg | divu | divs | subToReg | cmp | cmpa | andToReg | mulu | muls | addToReg =>
    exact .withFlags rfl rfl (h.fetchEA rfl (encEa_length _ _ _ _) List.mem_cons_self).bind
  case moveaL | moveaW | suba | adda =>
    exact .plain rfl (h.fetchEA rfl (encEa_length _ _ _ _) List.mem_cons_self).bind
  case cmpm => exact .withFlags rfl rfl (h.fetchEA rfl rfl List.mem_cons_self).bind
  case sbcdMem | subxMem | abcdMem | addxMem =>
    exact .withFlags rfl rfl (h.fetchEA rfl rfl List.mem_cons_self).bind.bind
  case moveB | moveL | moveW =>
    exact .withFlags rfl rfl (h.moveRule rfl rfl (encMove_length _ _ _ _) rfl)
  case moveToSr =>
    exact .withFlags rfl rfl (.after (privileged_ok (hpriv rfl))
      (h.fetchEA rfl (encEa_length _ _ _ _) List.mem_cons_self).bind)
  case oriSr | andiSr | eoriSr | stop =>
    exact .withFlags rfl rfl (.after (privileged_ok (hpriv rfl))
      (h.fetchExt_bind (Nat.lt_succ_self 1) fun _ h => h.elim rfl))
  case oriCcr | andiCcr | eoriCcr =>
    exact .withFlags rfl rfl (h.fetchExt_bind (Nat.lt_succ_self 1) fun _ h => h.elim rfl)
  case dbcc => exact .plain rfl (.after rfl (h.fetchExt_bind (Nat.lt_succ_self 1) fun _ h => h.elim rfl))
  case movepLoadW | movepLoadL =>
    exact .plain rfl (h.fetchExt_bind (Nat.lt_succ_self 1) fun _ h =>
      .after rfl (loadAlternate_stops (t := s.started.skip 1) (h.fails rfl)).bind)
  case movepStoreW | movepStoreL =>
    exact .plain rfl (h.fetchExt_bind (Nat.lt_succ_self 1) fun _ h =>
      .after rfl (.after rfl (storeAlternate_stops (t := s.started.skip 1) (h.fails rfl))))
  case moveFromCcr =>
    exact .plain rfl (.after (from68010_ok hmodel) (h.calcEA_bind (encEa_length _ _ _ _) List.mem_cons_self fun _ h =>
      .after rfl (h.writeEA rfl)))
  case clr =>
    exact .withFlags rfl rfl (h.calcEA_bind (encEa_length _ _ _ _) List.mem_cons_self fun _ h => (h.writeEA rfl).bind)
  case scc =>
    exact .plain rfl (h.calcEA_bind (encEa_length _ _ _ _) List.mem_cons_self fun _ h => .after rfl (h.writeEA rfl))
  case lea | jmp =>
    exact .plain rfl (h.calcEA_bind (encEa_length _ _ _ _) List.mem_cons_self fun _ h => h.elim rfl)
  case rte =>
    obtain ⟨e, rfl, ho⟩ := h.operand_of_length rfl
    exact .withFlags rfl rfl (.after (privileged_ok (hpriv rfl))
      (.after rfl (memReadFC_stops (s := s.started) (ho.fails rfl)).bind))
  case rts =>
    obtain ⟨e, rfl, ho⟩ := h.operand_of_length rfl
    exact .plain rfl (popLong_stops (s := s.started) (ho.fails rfl)).bind
  case rtr =>
    obtain ⟨e, rfl, ho⟩ := h.operand_of_length rfl
    exact .withFlags rfl rfl (.after rfl (memRead_stops (s := s.started) (ho.fails rfl)).bind)
  case rtd =>
    exact .plain rfl (.after (from68010_ok hmodel) (h.fetchExt_bind (Nat.lt_succ_self 1) fun _ h =>
      .after rfl (memRead_stops (s := s.started.skip 1) (h.fails rfl)).bind))
  case unlk an =>
    obtain ⟨e, rfl, ho⟩ := h.operand_of_length rfl
    refine .plain rfl (.after rfl (.after rfl (popLong_stops ?_).bind))
    rw [State.setSP_cfg, State.dataFC_setSP, State.getSP_setSP]
    exact ho.fails rfl
  case link =>
    refine .plain rfl (h.fetchExt_bind (Nat.lt_succ_self 1) fun _ h => .after rfl (.after rfl (.after rfl
      (memWrite_stops ?_).bind)))
    rw [State.setSP_cfg, State.dataFC_setSP]
    exact h.fails rfl
  case pea ea =>
    refine .plain rfl (h.calcEA_bind (encEa_length _ _ _ _) List.mem_cons_self fun _ h => ?_)
    rw [State.afterEA_of_control hwf, State.skip_skip]
    exact pushLong_stops (s := s.started.skip _) (h.fails rfl)
  case jsr ea =>
    refine .plain rfl (h.calcEA_bind (encEa_length _ _ _ _) List.mem_cons_self fun _ h => ?_)
    rw [State.afterEA_of_control hwf, State.skip_skip]
    exact .after rfl (pushLong_stops (s := s.started.skip _) (h.fails rfl)).bind
  case moveFromSr ea =>
    refine .plain rfl (.after rfl ?_)
    have write : StopsWith x (do
        let loc ← calcEA ea .w
        let v ← readSR
        writeEA loc .w (v.setWidth 32)) s.started :=
      h.calcEA_bind (encEa_length _ _ _ _) List.mem_cons_self fun _ h => .after rfl (h.writeEA rfl)
    dsimp only
    split
    · rename_i h10
      exact .after (privileged_ok (hpriv h10)) write
    · exact write
  case moves => exact h.stopsBy_moves hmodel (hpriv rfl)
  case movemToMem => exact h.stopsBy_movemToMem
  case movemToPredec => exact h.stopsBy_movemToPredec
  case movemFromMem => exact h.stopsBy_movemFromMem
  case movemFromPostinc => exact h.stopsBy_movemFromPostinc
  case movecFrom => exact h.stopsBy_movecFrom hmodel (hpriv rfl)
  case movecTo => exact h.stopsBy_movecTo hmodel (hpriv rfl)
  case bra d | bcc c d => exact .plain rfl (h.branchRule hmodel (by cases d <;> rfl) rfl)
  case bsr d => exact .plain rfl (h.bsrRule hmodel)

/-! ## What is left -/

section
variable {s : State} {i : Instr} {e : Exc}

/-- After an access that fails, what the instruction does not write is as before (R135). -/
theorem StopsBy.left_access (h : StopsBy i s (.exc e)) (he : e = .busError ∨ e = .addressError) :
    ∃ u, exec i s = .next (deliver e .execute s.pc u.counted) ∧
      s.Left u (instrWrites s i) (fun r => writesStackReg r i) := by
  obtain ⟨ts, rule, hc, ⟨t, ht⟩, hts⟩ := h
  refine ⟨_, hc.trans (cycle_exc ht), ?_⟩
  have := ((State.Left.refl s).withCounts t.pc t.draws).trans (State.left_faultLeaves fun y hy => (hts y hy).1)
  rcases he with rfl | rfl <;> exact this

/-- After a word that cannot be fetched, so are the flags that the instruction does not write (D23, R463). -/
theorem StopsBy.left_fetch (h : StopsBy i s (.fetch e)) :
    ∃ u, exec i s = .next (deliver e .execute s.pc u.counted) ∧
      s.Left u (instrWrites s i) (fun r => writesStackReg r i) ∧
      u.sr &&& 0x1F#16 &&& ~~~flagMask i = s.sr &&& 0x1F#16 &&& ~~~flagMask i := by
  obtain ⟨ts, rule, hc, ⟨t, ht⟩, hts⟩ := h
  exact ⟨_, hc.trans (cycle_fetch ht),
    ((State.Left.refl s).withCounts t.pc t.draws).trans (State.left_fetchLeaves fun y hy => (hts y hy).1),
    State.fetchLeaves_flags { s with pc := t.pc, draws := t.draws } fun y hy => (hts y hy).2⟩

end

/-- Settles O60: what fails first ends the rule, and what its cycle then frees is within what the instruction writes. -/
theorem accessFaults : Obligations.AccessFaults := by
  unfold Obligations.AccessFaults
  intro s i hwf hmodel _ hpriv
  have access : ∀ e, OperandFails s i e → e = .busError ∨ e = .addressError →
      ∃ u, exec i s = .next (deliver e .execute s.pc u.counted) ∧
        s.Frame u (instrWrites s i) (fun r => writesStackReg r i) ∧ u.sr &&& 0xFFE0#16 = s.sr &&& 0xFFE0#16 := by
    intro e h he
    obtain ⟨u, hu, hleft⟩ := ((FirstFails.operand h).stopsBy hwf hmodel hpriv).left_access he
    exact ⟨u, hu, hleft.frame, hleft.system⟩
  refine ⟨fun it fc a n hw hb ha => ⟨fun ho => ?_, fun ho hr => ?_⟩, fun e hl hsrc hf => ?_⟩
  · exact access _ ⟨hw, hb, it, fc, a, n, ha, .odd ho⟩ (.inr rfl)
  · exact access _ ⟨hw, hb, it, fc, a, n, ha, .refused ho hr⟩ (.inl rfl)
  · obtain ⟨u, hu, hleft, hflags⟩ := ((FirstFails.word ⟨hl, hsrc, hf⟩).stopsBy hwf hmodel hpriv).left_fetch
    exact ⟨u, hu, ⟨hleft.frame, hleft.system⟩, hflags⟩

end Sys2Proof.Machine
end

section
/-! SUPPORT. What a rule has left alone so far (R128), as a predicate of the state that the shared operations keep: `Kept`
within a rule, `Done` after its last write. -/

namespace Sys2Proof.Machine

/-! ## Flags that agree outside a mask -/

/-- The flags outside a mask of the CCR are the same (R194): X = 16, N = 8, Z = 4, V = 2, C = 1. -/
structure Ccr.Agrees (mask : Half) (f g : Ccr) : Prop where
  x : mask.getLsbD 4 = true ∨ f.x = g.x
  n : mask.getLsbD 3 = true ∨ f.n = g.n
  z : mask.getLsbD 2 = true ∨ f.z = g.z
  v : mask.getLsbD 1 = true ∨ f.v = g.v
  c : mask.getLsbD 0 = true ∨ f.c = g.c

namespace Ccr.Agrees

variable {mask : Half} {f g h : Ccr}

theorem refl (f : Ccr) : f.Agrees mask f := ⟨.inr rfl, .inr rfl, .inr rfl, .inr rfl, .inr rfl⟩

/-- An instruction that writes all five flags. -/
theorem all (hm : mask = 31) : f.Agrees mask g := by
  subst hm
  exact ⟨.inl rfl, .inl rfl, .inl rfl, .inl rfl, .inl rfl⟩

/-- An instruction that writes all flags but X. -/
theorem butX (hm : mask = 15) (ha : h.Agrees mask g) (hx : f.x = h.x) : f.Agrees mask g := by
  subst hm
  exact ⟨hx ▸ ha.x, .inl rfl, .inl rfl, .inl rfl, .inl rfl⟩

/-- An instruction that writes Z alone. -/
theorem onlyZ (hm : mask = 4) (ha : h.Agrees mask g) (hz : f = { h with z := f.z }) : f.Agrees mask g := by
  subst hm
  rw [hz]
  exact ⟨ha.x, ha.n, .inl rfl, ha.v, ha.c⟩

/-- The flags of the status register outside a mask. -/
theorem sr {s t : State} (ha : t.flags.Agrees mask s.flags) :
    t.sr &&& 0x1F#16 &&& ~~~mask = s.sr &&& 0x1F#16 &&& ~~~mask := by
  have bit : ∀ {i : Nat}, mask.getLsbD i = true ∨ t.sr.getLsbD i = s.sr.getLsbD i →
      (t.sr &&& 0x1F#16 &&& ~~~mask).getLsbD i = (s.sr &&& 0x1F#16 &&& ~~~mask).getLsbD i := by
    rintro i (h | h) <;> simp [h]
  refine BitVec.eq_of_getLsbD_eq fun i hi => ?_
  rcases Nat.lt_or_ge i 5 with h5 | h5
  · interval_cases i
    · exact bit ha.c
    · exact bit ha.v
    · exact bit ha.z
    · exact bit ha.n
    · exact bit ha.x
  · have hlow : (0x1F#16).getLsbD i = false := by interval_cases i <;> rfl
    simp only [BitVec.getLsbD_and, hlow, Bool.and_false, Bool.false_and]

end Ccr.Agrees

/-- The flags written are the flags read. -/
@[simp] theorem State.flags_setFlags (s : State) (f : Ccr) : (s.setFlags f).flags = f := by
  have bit : ∀ {i}, i < 5 → (s.setFlags f).sr.getLsbD i = f.byte.getLsbD i := fun hi => s.getLsbD_setCCR_low _ hi
  obtain ⟨x, n, z, v, c⟩ := f
  simp only [State.flags, bit (i := 0) (by decide), bit (i := 1) (by decide), bit (i := 2) (by decide),
    bit (i := 3) (by decide), bit (i := 4) (by decide)]
  clear bit
  revert x n z v c
  decide

/-! ## Permissions -/

/-- The instruction, if it is well-formed, lists the target among what it writes. -/
def May (s : State) (i : Instr) (y : Target) : Prop := i.wf = true → y ∈ instrWrites s i

/-- Every byte of an access is one of the bytes that a list of targets names. -/
def Covers (w : List Target) (fc : FC) (a : Word) (n : Nat) : Prop :=
  ∀ k < n, ∃ b m, .mem fc b m ∈ w ∧ ∃ j < m, a + BitVec.ofNat 32 k = b + BitVec.ofNat 32 j

/-- The instruction, if it is well-formed, lists every byte of the access among what it writes. -/
def MayStore (s : State) (i : Instr) (fc : FC) (a : Word) (n : Nat) : Prop :=
  i.wf = true → Covers (instrWrites s i) fc a n

theorem May.store {s : State} {i : Instr} {fc : FC} {a : Word} {n : Nat} (h : May s i (.mem fc a n)) :
    MayStore s i fc a n := fun hw k hk => ⟨a, n, h hw, k, hk, rfl⟩

/-- A part of the bytes that the instruction lists. -/
theorem May.storePart {s : State} {i : Instr} {fc : FC} {a b : Word} {n m j : Nat} (h : May s i (.mem fc b m))
    (ha : a = b + BitVec.ofNat 32 j) (hj : j + n ≤ m) : MayStore s i fc a n := fun hw k hk =>
  ⟨b, m, h hw, j + k, by omega, by rw [ha, BitVec.ofNat_add, BitVec.add_assoc]⟩

theorem Covers.of_succ {w : List Target} {fc : FC} {a : Word} {n : Nat} (h : Covers w fc a (n + 1)) :
    Covers w fc (a + 1) n := fun k hk => by
  obtain ⟨b, m, hb, j, hj, e⟩ := h (k + 1) (by omega)
  refine ⟨b, m, hb, j, hj, ?_⟩
  rw [← e, Nat.add_comm k 1, BitVec.ofNat_add, BitVec.add_assoc]
  rfl

theorem State.left_putByte {s : State} {w : List Target} {own : StackReg → Bool} {fc : FC} {a : Word} {n : Nat}
    (b : Byte) (h : Covers w fc a (n + 1)) : s.Left (s.putByte fc a b) w own where
  frame := {
    data := fun _ _ => rfl
    address := fun _ _ _ => rfl
    stack := fun r _ _ => by cases r <;> rfl
    memory := fun fc' a' hm => by
      obtain ⟨c, m, hc, j, hj, e⟩ := h 0 (by omega)
      refine State.byteAt_putByte_ne s fc fc' b ?_
      have := hm fc c m hc j hj
      rwa [← e, BitVec.add_zero] at this }
  cfg := rfl
  system := rfl

theorem State.left_putBytes {s : State} {w : List Target} {own : StackReg → Bool} {fc : FC} {a v : Word} {n : Nat}
    (h : Covers w fc a n) : s.Left (s.putBytes fc a v n) w own := by
  induction n generalizing s a with
  | zero => exact .refl s
  | succ n ih => exact (State.left_putByte _ h).trans (ih h.of_succ)

/-! ## What has been left alone -/

/-- The control registers that only MOVEC writes (R414). -/
def State.controls (t : State) : Word × FC × FC × Word × Word := (t.vbr, t.sfc, t.dfc, t.cacr, t.caar)

/-- What no rule but those of the system instructions writes: the parameters, the system byte of SR, the control
registers, the run condition, the opcode register and the counter (R128, R191, R414, R491). -/
def State.unwritten (t : State) : Params × Half × (Word × FC × FC × Word × Word) × RunCondition × Half × Nat :=
  (t.cfg, t.sr &&& 0xFFE0#16, t.controls, t.run, t.opcode, t.icount)

/-- Where a rule that began in `s` stands at `t`: it has changed no register or byte but those the instruction lists, no
flag but those it writes, and nothing that only the system instructions write. -/
structure Kept (s : State) (i : Instr) (t : State) : Prop where
  left : i.wf = true → s.Left t (instrWrites s i) (fun r => writesStackReg r i)
  unwritten : t.unwritten = s.unwritten
  flags : t.flags.Agrees (flagMask i) s.flags

/-- What the whole rule of an instruction leaves alone, the system instructions among them. -/
structure Done (s : State) (i : Instr) (t : State) : Prop where
  frame : i.wf = true → s.Frame t (instrWrites s i) (fun r => writesStackReg r i)
  flags : t.flags.Agrees (flagMask i) s.flags
  system : writesSystemByte i = false → t.sr &&& 0xFFE0#16 = s.sr &&& 0xFFE0#16
  control : writesControl i = false → t.controls = s.controls
  run : (∀ imm, i ≠ .stop imm) → t.run = s.run
  opcode : t.opcode = s.opcode
  cfg : t.cfg = s.cfg
  icount : t.icount = s.icount

namespace Kept

variable {s t u : State} {i : Instr}

theorem refl (s : State) (i : Instr) : Kept s i s := ⟨fun _ => .refl s, rfl, .refl _⟩

/-- One more write within what the instruction may write. -/
theorem step (h : Kept s i t) (hl : i.wf = true → t.Left u (instrWrites s i) (fun r => writesStackReg r i))
    (hu : u.unwritten = t.unwritten) (hf : u.flags.Agrees (flagMask i) s.flags) : Kept s i u :=
  ⟨fun hw => (h.left hw).trans (hl hw), hu.trans h.unwritten, hf⟩

theorem withCounts (h : Kept s i t) (p : Word) (k : Nat) : Kept s i { t with pc := p, draws := k } :=
  h.step (fun _ => (State.Left.refl t).withCounts p k) rfl h.flags

theorem setD (h : Kept s i t) {n : RegNo} (hn : May s i (.d n)) (v : Word) : Kept s i (t.setD n v) :=
  h.step (fun hw => State.left_setD v (hn hw)) rfl h.flags

theorem setA (h : Kept s i t) {n : RegNo} (hn : May s i (.a n)) (v : Word) : Kept s i (t.setA n v) :=
  h.step (fun hw => State.left_setA v (hn hw)) (by simp [State.unwritten, State.controls]) (by simpa using h.flags)

theorem putBytes (h : Kept s i t) {fc : FC} {a : Word} {n : Nat} (hn : MayStore s i fc a n) (v : Word) :
    Kept s i (t.putBytes fc a v n) := by
  obtain ⟨m, hm⟩ := t.putBytes_only_mem fc a v n
  refine h.step (fun hw => State.left_putBytes (hn hw)) ?_ ?_
  · rw [hm]; rfl
  · rw [hm]; exact h.flags

theorem setFlags (h : Kept s i t) {f : Ccr} (hf : f.Agrees (flagMask i) s.flags) : Kept s i (t.setFlags f) :=
  h.step (fun _ => State.left_setCCR _)
    (by simp only [State.unwritten, (State.left_setCCR (s := t) (w := []) (own := fun _ => true) f.byte).system,
          State.setFlags, State.setCCR_cfg]; rfl)
    (by rwa [State.flags_setFlags])

theorem setCCR (h : Kept s i t) (hm : flagMask i = 31) (v : Byte) : Kept s i (t.setCCR v) :=
  h.step (fun _ => State.left_setCCR _)
    (by simp only [State.unwritten, (State.left_setCCR (s := t) (w := []) (own := fun _ => true) v).system,
          State.setCCR_cfg]; rfl)
    (.all hm)

theorem cfg (h : Kept s i t) : t.cfg = s.cfg := congrArg Prod.fst h.unwritten

theorem system (h : Kept s i t) : t.sr &&& 0xFFE0#16 = s.sr &&& 0xFFE0#16 := congrArg (·.2.1) h.unwritten

/-- The data space is that of the start: the privilege has not changed (R79). -/
theorem dataFC (h : Kept s i t) : t.dataFC = s.dataFC := by
  have hb : t.supervisor = s.supervisor := by
    have := congrArg (fun v : Half => v.getLsbD 13) h.system
    simpa [State.supervisor] using this
  rw [State.dataFC, State.dataFC, hb]

theorem called (h : Kept s i t) (fc : FC) (a : Word) (n : Nat) : Kept s i (t.called fc a n) := by
  obtain ⟨k, hk⟩ := t.called_only_draws fc a n
  rw [hk]
  exact h.withCounts t.pc k

theorem done (h : Kept s i t) : Done s i t where
  frame hw := (h.left hw).frame
  flags := h.flags
  system _ := h.system
  control _ := congrArg (·.2.2.1) h.unwritten
  run _ := congrArg (·.2.2.2.1) h.unwritten
  opcode := congrArg (·.2.2.2.2.1) h.unwritten
  cfg := h.cfg
  icount := congrArg (·.2.2.2.2.2) h.unwritten

end Kept

/-! ## Operations from one state -/

/-- An operation that begins in `t` ends, well or not, in a state with a property. -/
def Ends {α : Type} (P : State → Prop) (m : Op α) (t : State) : Prop := P (endState (m t))

theorem Ends.of {α : Type} {P : State → Prop} {m : Op α} {t : State} (h : Keeps P m) (ht : P t) : Ends P m t := h t ht

/-- The first part ends with `P`, which the rest turns into `Q`. -/
theorem Ends.bindTo {α β : Type} {P Q : State → Prop} {m : Op α} {k : α → Op β} {t : State} (hPQ : ∀ {u}, P u → Q u)
    (hm : Ends P m t) (hk : ∀ a u, m t = .ok a u → P u → Ends Q (k a) u) : Ends Q (m >>= k) t := by
  unfold Ends at *
  cases h : m t with
  | ok a u =>
    rw [h] at hm
    rw [bind_ok h]
    exact hk a u h hm
  | error e u =>
    rw [h] at hm
    rw [bind_error h]
    exact hPQ hm

theorem Ends.bind {α β : Type} {P : State → Prop} {m : Op α} {k : α → Op β} {t : State} (hm : Ends P m t)
    (hk : ∀ a u, m t = .ok a u → P u → Ends P (k a) u) : Ends P (m >>= k) t := .bindTo id hm hk

end Sys2Proof.Machine
end

section
/-! SUPPORT. The shared operations keep `Kept` where the instruction may write what they write. -/

namespace Sys2Proof.Machine

/-! ## Where an effective address lies -/

/-- Two states differ at most in `pc` and in the count of free values. -/
def Moved (t u : State) : Prop := ∃ p k, u = { t with pc := p, draws := k }

theorem Moved.refl (t : State) : Moved t t := ⟨_, _, rfl⟩

theorem Moved.trans {t u v : State} (h : Moved t u) (h' : Moved u v) : Moved t v := by
  obtain ⟨p, k, rfl⟩ := h
  obtain ⟨p', k', rfl⟩ := h'
  exact ⟨p', k', rfl⟩

theorem Moved.started (s : State) : Moved s s.started := ⟨_, _, rfl⟩

theorem Moved.sideEffect {t u : State} (h : Moved t u) (ea : Ea) (sz : Size) :
    Moved (t.sideEffect ea sz) (u.sideEffect ea sz) := by
  obtain ⟨p, k, rfl⟩ := h
  have setA : ∀ n v, Moved (t.setA n v) (State.setA { t with pc := p, draws := k } n v) := fun n v => by
    unfold State.setA
    split
    · exact ⟨p, k, rfl⟩
    · unfold State.setSP
      change Moved _ (match t.activeStack with | .usp => _ | .isp => _ | .msp => _)
      cases t.activeStack <;> exact ⟨p, k, rfl⟩
  cases ea
  case postinc n => exact setA n _
  case predec n => exact setA n _
  all_goals exact ⟨p, k, rfl⟩

/-- The location of an effective address is computed from the registers alone. -/
theorem Moved.locate {t u : State} (h : Moved t u) (ea : Ea) (sz : Size) (base : Word) :
    u.locate ea sz base = t.locate ea sz base := by
  obtain ⟨p, k, rfl⟩ := h
  rfl

theorem Moved.getSP {t u : State} (h : Moved t u) : u.getSP = t.getSP := by
  obtain ⟨p, k, rfl⟩ := h
  rfl

theorem Moved.kept {s t : State} {i : Instr} (h : Moved s t) : Kept s i t := by
  obtain ⟨p, k, rfl⟩ := h
  exact (Kept.refl s i).withCounts p k

theorem fetchExt_moved {t u : State} {x : Unit} (h : fetchExt t = .ok x u) : Moved t u := by
  unfold fetchExt at h
  split at h
  · cases h
    obtain ⟨k, hk⟩ := t.afterFetch_only_draws t.pc
    rw [hk]
    exact ⟨_, _, rfl⟩
  · cases h

theorem takeExt_moved {t u : State} {x : Unit} {n : Nat} (h : takeExt n t = .ok x u) : Moved t u := by
  induction n generalizing t with
  | zero => cases h; exact .refl _
  | succ n ih =>
    obtain ⟨y, v, h1, h2⟩ := bind_eq_ok.1 h
    exact (fetchExt_moved h1).trans (ih h2)

/-- `CalcEA` gives the location of the registers it begins with, and leaves its side effect. -/
theorem calcEA_located {t u : State} {ea : Ea} {sz : Size} {loc : Loc} (h : calcEA ea sz t = .ok loc u) :
    (∃ base, loc = t.locate ea sz base) ∧ Moved (t.sideEffect ea sz) u := by
  simp only [calcEA, readPC_bind] at h
  obtain ⟨_, v, hext, h⟩ := bind_eq_ok.1 h
  obtain ⟨_, w, hbrief, h⟩ := bind_eq_ok.1 h
  have hm := takeExt_moved hext
  unfold checkBrief at hbrief
  split at hbrief
  · cases hbrief
  · cases hbrief
    cases h
    exact ⟨⟨t.pc, hm.locate ea sz t.pc⟩, hm.sideEffect ea sz⟩

theorem readEA_moved {t u : State} {loc : Loc} {sz : Size} {v : Word} (h : readEA loc sz t = .ok v u) : Moved t u := by
  obtain ⟨k, rfl⟩ := readEA_code (.inl ⟨v, h⟩)
  exact ⟨t.pc, k, rfl⟩

theorem fetchEA_located {t u : State} {ea : Ea} {sz : Size} {v : Word} (h : fetchEA ea sz t = .ok v u) :
    Moved (t.sideEffect ea sz) u := by
  obtain ⟨loc, w, h1, h2⟩ := bind_eq_ok.1 h
  exact (calcEA_located h1).2.trans (readEA_moved h2)

theorem openEA_located {t u : State} {ea : Ea} {sz : Size} {ld : Loc × Word} (h : openEA ea sz t = .ok ld u) :
    (∃ base, ld.1 = t.locate ea sz base) ∧ Moved (t.sideEffect ea sz) u := by
  obtain ⟨loc, w, h1, h2⟩ := bind_eq_ok.1 h
  obtain ⟨v, x, h2, h3⟩ := bind_eq_ok.1 h2
  cases h3
  exact ⟨(calcEA_located h1).1, (calcEA_located h1).2.trans (readEA_moved h2)⟩

/-- The instruction may update the register of an effective address, and write to its location as computed from `t`. -/
structure MayWriteEA (s : State) (i : Instr) (t : State) (ea : Ea) (sz : Size) : Prop where
  side : ∀ y ∈ eaSideTargets ea, May s i y
  loc : ∀ base, ∀ y ∈ (t.locate ea sz base).targets sz, May s i y

theorem MayWriteEA.moved {s t u : State} {i : Instr} {ea : Ea} {sz : Size} (h : MayWriteEA s i t ea sz)
    (hm : Moved t u) : MayWriteEA s i u ea sz := ⟨h.side, fun base => hm.locate ea sz base ▸ h.loc base⟩

/-! ## Writes -/

namespace Kept

variable {s : State} {i : Instr} {α : Type}

theorem writeD {n : RegNo} {v : Word} (h : May s i (.d n)) : Keeps (Kept s i) (Machine.writeD n v) :=
  fun _ ht => ht.setD h v

theorem writeDSized {sz : Size} {n : RegNo} {v : Word} (h : May s i (.d n)) :
    Keeps (Kept s i) (Machine.writeDSized sz n v) := fun _ ht => ht.setD h _

theorem writeA {n : RegNo} {v : Word} (h : May s i (.a n)) : Keeps (Kept s i) (Machine.writeA n v) :=
  fun _ ht => ht.setA h v

theorem writeSP {v : Word} (h : May s i (.a 7)) : Keeps (Kept s i) (Machine.writeSP v) := writeA h

theorem writePC {v : Word} : Keeps (Kept s i) (Machine.writePC v) := fun t ht => ht.withCounts v t.draws

theorem writeG {r : GReg} {v : Word} (h : ∀ y ∈ gregTargets r, May s i y) : Keeps (Kept s i) (Machine.writeG r v) := by
  cases r with
  | d n => exact writeD (h _ List.mem_cons_self)
  | a n => exact writeA (h _ List.mem_cons_self)

theorem writeMoves {sz : Size} {r : GReg} {v : Word} (h : ∀ y ∈ gregTargets r, May s i y) :
    Keeps (Kept s i) (Machine.writeMoves sz r v) := by
  cases r with
  | d n => exact writeDSized (h _ List.mem_cons_self)
  | a n => exact writeA (h _ List.mem_cons_self)

theorem memReadFC {fc : FC} {a : Word} {n : Nat} : Keeps (Kept s i) (Machine.memReadFC fc a n) := by
  intro t ht
  unfold Machine.memReadFC
  split
  · exact ht
  · split <;> exact ht.called fc a n

theorem memWriteFC {fc : FC} {a v : Word} {n : Nat} (h : MayStore s i fc a n) :
    Keeps (Kept s i) (Machine.memWriteFC fc a n v) := by
  intro t ht
  unfold Machine.memWriteFC
  split
  · exact ht
  · split
    · exact ht.called fc a n
    · rename_i u hu
      rcases State.memPut_cases hu with rfl | rfl
      · exact ht.putBytes h v
      · exact ht.called fc a n

theorem memRead {a : Word} {n : Nat} : Keeps (Kept s i) (Machine.memRead a n) := fun _ ht => memReadFC _ ht

theorem memWrite {a v : Word} {n : Nat} (h : MayStore s i s.dataFC a n) : Keeps (Kept s i) (Machine.memWrite a n v) :=
  fun t ht => by
    unfold Machine.memWrite
    rw [ht.dataFC]
    exact memWriteFC h t ht

/-! ## Extension words and effective addresses -/

theorem fetchExt : Keeps (Kept s i) Machine.fetchExt := by
  intro t ht
  obtain ⟨k, hk⟩ := t.afterFetch_only_draws t.pc
  unfold Machine.fetchExt
  rw [hk]
  split
  · exact ht.withCounts _ _
  · exact ht.withCounts t.pc _

theorem takeExt {n : Nat} : Keeps (Kept s i) (Machine.takeExt n) := by
  induction n with
  | zero => exact .pure
  | succ n ih => exact .bind fetchExt fun _ => ih

theorem sideEffect {ea : Ea} {sz : Size} {t : State} (h : ∀ y ∈ eaSideTargets ea, May s i y) (ht : Kept s i t) :
    Kept s i (t.sideEffect ea sz) := by
  cases ea
  case postinc n => exact ht.setA (h _ List.mem_cons_self) _
  case predec n => exact ht.setA (h _ List.mem_cons_self) _
  all_goals exact ht

theorem calcEA {ea : Ea} {sz : Size} (h : ∀ y ∈ eaSideTargets ea, May s i y) :
    Keeps (Kept s i) (Machine.calcEA ea sz) :=
  .bind .readPC fun _ => .bind takeExt fun _ => .bind .checkBrief fun _ _ ht => ht.sideEffect h

theorem readEA {loc : Loc} {sz : Size} : Keeps (Kept s i) (Machine.readEA loc sz) := by
  cases loc with
  | dreg n => exact .readDSized
  | areg n => exact .bind .readA fun _ => .pure
  | mem fc a => exact memReadFC
  | imm v => exact .pure

theorem writeEA {loc : Loc} {sz : Size} {v : Word} (h : ∀ y ∈ loc.targets sz, May s i y) :
    Keeps (Kept s i) (Machine.writeEA loc sz v) := by
  cases loc with
  | dreg n => exact writeDSized (h _ List.mem_cons_self)
  | areg n => exact writeA (h _ List.mem_cons_self)
  | mem fc a => exact memWriteFC (h _ List.mem_cons_self).store
  | imm v => exact .pure

theorem fetchEA {ea : Ea} {sz : Size} (h : ∀ y ∈ eaSideTargets ea, May s i y) :
    Keeps (Kept s i) (Machine.fetchEA ea sz) := .bind (calcEA h) fun _ => readEA

theorem fetchImm {v : Word} {sz : Size} : Keeps (Kept s i) (Machine.fetchEA (.imm v) sz) :=
  fetchEA fun _ h => nomatch h

theorem openEA {ea : Ea} {sz : Size} (h : ∀ y ∈ eaSideTargets ea, May s i y) :
    Keeps (Kept s i) (Machine.openEA ea sz) := .bind (calcEA h) fun _ => .bind readEA fun _ => .pure

/-! ## Flags -/

/-- What is computed from flags that agree with those of the start. -/
theorem readFlags_bind {k : Ccr → Op α} (hk : ∀ fl, fl.Agrees (flagMask i) s.flags → Keeps (Kept s i) (k fl)) :
    Keeps (Kept s i) (readFlags >>= k) := fun t ht => hk t.flags ht.flags t ht

theorem writeFlags {f : Ccr} (h : f.Agrees (flagMask i) s.flags) : Keeps (Kept s i) (Machine.writeFlags f) :=
  fun _ ht => ht.setFlags h

theorem modifyFlags {g : Ccr → Ccr}
    (h : ∀ fl, fl.Agrees (flagMask i) s.flags → (g fl).Agrees (flagMask i) s.flags) :
    Keeps (Kept s i) (Machine.modifyFlags g) := readFlags_bind fun fl hfl => writeFlags (h fl hfl)

theorem undefinedFlag {old : Bool} : Keeps (Kept s i) (Machine.undefinedFlag old) := by
  intro t ht
  unfold Machine.undefinedFlag
  split
  · exact ht
  · exact ht.withCounts t.pc _

/-- A result written to a location, with its flags. -/
theorem result {loc : Loc} {sz : Size} {g : Ccr → Word × Ccr} (hl : ∀ y ∈ loc.targets sz, May s i y)
    (hg : ∀ fl, fl.Agrees (flagMask i) s.flags → (g fl).2.Agrees (flagMask i) s.flags) :
    Keeps (Kept s i) (do
      let fl ← readFlags
      Machine.writeEA loc sz (g fl).1
      Machine.writeFlags (g fl).2) :=
  readFlags_bind fun fl hfl => .bind (writeEA hl) fun _ => writeFlags (hg fl hfl)

theorem bcdFlags {res : Byte} {c : Bool} (h : flagMask i = 31) : Keeps (Kept s i) (Machine.bcdFlags res c) :=
  .bind .readFlags fun _ => .bind undefinedFlag fun _ => .bind undefinedFlag fun _ => writeFlags (.all h)

theorem divZeroFlags (h : flagMask i = 15) : Keeps (Kept s i) Machine.divZeroFlags :=
  readFlags_bind fun _ hfl => .bind undefinedFlag fun _ => .bind undefinedFlag fun _ =>
    .bind undefinedFlag fun _ => writeFlags (.butX h hfl rfl)

theorem divOverflowFlags (h : flagMask i = 15) : Keeps (Kept s i) Machine.divOverflowFlags := by
  have silicon : Keeps (Kept s i) (do
      let f ← Machine.readFlags
      let n ← Machine.undefinedFlag f.n
      let z ← Machine.undefinedFlag f.z
      Machine.writeFlags { f with n := n, z := z, v := true, c := false }) :=
    readFlags_bind fun _ hfl => .bind undefinedFlag fun _ => .bind undefinedFlag fun _ =>
      writeFlags (.butX h hfl rfl)
  intro t ht
  unfold Machine.divOverflowFlags
  split
  · exact ht
  · exact silicon t ht

theorem chkFlags {n : Bool} (h : flagMask i = 15) : Keeps (Kept s i) (Machine.chkFlags n) :=
  readFlags_bind fun _ hfl => .bind undefinedFlag fun _ => .bind undefinedFlag fun _ =>
    .bind undefinedFlag fun _ => writeFlags (.butX h hfl rfl)

/-! ## The stack -/

theorem popLong (h : May s i (.a 7)) : Keeps (Kept s i) Machine.popLong :=
  .bind .readSP fun _ => .bind memRead fun _ => .bind (writeSP h) fun _ => .pure

/-- A push from a state whose A7 is that of the start (R135). -/
theorem pushLong {t : State} {v : Word} (ht : Kept s i t) (hsp : i.wf = true → t.getSP = s.getSP)
    (h : ∀ y ∈ s.pushTargets, May s i y) : Ends (Kept s i) (Machine.pushLong v) t := by
  refine Ends.bind (m := Machine.readSP) ht fun sp u hu _ => ?_
  cases hu
  refine .bind (writeSP (h _ List.mem_cons_self) _ ht) fun _ u _ hk => memWrite (fun hw => ?_) u hk
  rw [hsp hw]
  exact (h _ (List.mem_cons_of_mem _ List.mem_cons_self)).store hw

/-! ## The rules of the instruction families -/

variable {t : State} {ea : Ea} {sz : Size}

/-- The flags of a two-operand operation, within the mask. -/
def AluFlags (s : State) (i : Instr) (f : Alu) : Prop :=
  ∀ sz v d fl, fl.Agrees (flagMask i) s.flags → (f sz v d fl).2.Agrees (flagMask i) s.flags

theorem aluToReg {f : Alu} {dn : RegNo} (hs : ∀ y ∈ eaSideTargets ea, May s i y) (hd : May s i (.d dn))
    (hf : AluFlags s i f) : Keeps (Kept s i) (Machine.aluToReg f sz dn ea) :=
  .bind (fetchEA hs) fun _ => .bind .readDSized fun _ => readFlags_bind fun _ hfl =>
    .bind (writeDSized hd) fun _ => writeFlags (hf _ _ _ _ hfl)

theorem openEA_bind {k : Loc × Word → Op α} (ht : Kept s i t) (hw : MayWriteEA s i t ea sz)
    (hk : ∀ ld, (∀ y ∈ ld.1.targets sz, May s i y) → Keeps (Kept s i) (k ld)) :
    Ends (Kept s i) (Machine.openEA ea sz >>= k) t :=
  .bind (openEA hw.side t ht) fun ld u hu hkept => by
    obtain ⟨⟨base, hb⟩, -⟩ := openEA_located hu
    exact hk ld (hb ▸ hw.loc base) u hkept

theorem calcEA_bind {k : Loc → Op α} (ht : Kept s i t) (hw : MayWriteEA s i t ea sz)
    (hk : ∀ loc, (∀ y ∈ loc.targets sz, May s i y) → Keeps (Kept s i) (k loc)) :
    Ends (Kept s i) (Machine.calcEA ea sz >>= k) t :=
  .bind (calcEA hw.side t ht) fun loc u hu hkept => by
    obtain ⟨⟨base, hb⟩, -⟩ := calcEA_located hu
    exact hk loc (hb ▸ hw.loc base) u hkept

theorem aluToEa {f : Alu} {dn : RegNo} (ht : Kept s i t) (hw : MayWriteEA s i t ea sz) (hf : AluFlags s i f) :
    Ends (Kept s i) (Machine.aluToEa f sz dn ea) t :=
  openEA_bind ht hw fun ld hl => .bind .readDSized fun v =>
    result (g := fun fl => f sz v ld.2 fl) hl fun _ hfl => hf _ _ _ _ hfl

theorem aluImm {f : Alu} {imm : Word} (ht : Kept s i t) (hw : MayWriteEA s i t ea sz) (hf : AluFlags s i f) :
    Ends (Kept s i) (Machine.aluImm f sz imm ea) t :=
  .bind (fetchImm t ht) fun v _ hu hkept =>
    openEA_bind hkept (hw.moved (fetchEA_located hu)) fun ld hl =>
      result (g := fun fl => f sz v ld.2 fl) hl fun _ hfl => hf _ _ _ _ hfl

theorem aluRegReg {f : Alu} {dx dy : RegNo} (hd : May s i (.d dx)) (hf : AluFlags s i f) :
    Keeps (Kept s i) (Machine.aluRegReg f sz dx dy) :=
  .bind .readDSized fun _ => .bind .readDSized fun _ => readFlags_bind fun _ hfl =>
    .bind (writeDSized hd) fun _ => writeFlags (hf _ _ _ _ hfl)

theorem aluUnary {f : Alu1} (ht : Kept s i t) (hw : MayWriteEA s i t ea sz)
    (hf : ∀ sz d fl, fl.Agrees (flagMask i) s.flags → (f sz d fl).2.Agrees (flagMask i) s.flags) :
    Ends (Kept s i) (Machine.aluUnary f sz ea) t :=
  openEA_bind ht hw fun ld hl => result (g := fun fl => f sz ld.2 fl) hl fun _ hfl => hf _ _ _ hfl

theorem addressOp {f : Word → Word → Word} {an : RegNo} (hs : ∀ y ∈ eaSideTargets ea, May s i y)
    (ha : May s i (.a an)) : Keeps (Kept s i) (Machine.addressOp f sz an ea) :=
  .bind (fetchEA hs) fun _ => .bind .readA fun _ => writeA ha

/-- The operands of the `-(Ay),-(Ax)` forms, and what is done with them: the destination is located after the source's
side effect (R166). -/
theorem predecPair_bind {k : Word × Loc × Word → Op α} {ax ay : RegNo} (ht : Kept s i t) (hy : May s i (.a ay))
    (hw : MayWriteEA s i (t.sideEffect (.predec ay) sz) (.predec ax) sz)
    (hk : ∀ p, (∀ y ∈ p.2.1.targets sz, May s i y) → Keeps (Kept s i) (k p)) :
    Ends (Kept s i) (Machine.predecPair sz ay ax >>= k) t := by
  have hs : ∀ y ∈ eaSideTargets (.predec ay), May s i y := fun y h => List.mem_singleton.1 h ▸ hy
  refine .bind (Ends.bind (fetchEA hs t ht) fun _ _ _ hkept =>
    Ends.bind (openEA hw.side _ hkept) fun _ _ _ h => h) fun p u hu hkept => ?_
  obtain ⟨v, u1, h1, h2⟩ := bind_eq_ok.1 hu
  obtain ⟨ld, u2, h2, h3⟩ := bind_eq_ok.1 h2
  cases h3
  obtain ⟨⟨base, hb⟩, -⟩ := openEA_located h2
  exact hk _ (hb ▸ (hw.moved (fetchEA_located h1)).loc base) u hkept

theorem aluMemMem {f : Alu} {ax ay : RegNo} (ht : Kept s i t) (hy : May s i (.a ay))
    (hw : MayWriteEA s i (t.sideEffect (.predec ay) sz) (.predec ax) sz) (hf : AluFlags s i f) :
    Ends (Kept s i) (Machine.aluMemMem f sz ax ay) t :=
  predecPair_bind ht hy hw fun p hl => result (g := fun fl => f sz p.1 p.2.2 fl) hl fun _ hfl => hf _ _ _ _ hfl

theorem quickOp {f : Alu} {g : Word → Word → Word} {q : RegNo} (ht : Kept s i t) (hw : MayWriteEA s i t ea sz)
    (hne : ∀ n, ea ≠ .areg n) (hf : AluFlags s i f) : Ends (Kept s i) (Machine.quickOp f g sz q ea) t := by
  unfold Machine.quickOp
  split
  · exact absurd rfl (hne _)
  · exact openEA_bind ht hw fun ld hl =>
      result (g := fun fl => f sz (quickValue q) ld.2 fl) hl fun _ hfl => hf _ _ _ _ hfl

theorem mulRule {f : Half → Half → Word} {dn : RegNo} (hs : ∀ y ∈ eaSideTargets ea, May s i y)
    (hd : May s i (.d dn)) (hm : flagMask i = 15) : Keeps (Kept s i) (Machine.mulRule f dn ea) :=
  .bind (fetchEA hs) fun _ => .bind .readD fun _ => .bind (writeD hd) fun _ => modifyFlags fun _ hfl => .butX hm hfl rfl

theorem bcdRegReg {f : BcdOp} {dx dy : RegNo} (hd : May s i (.d dx)) (hm : flagMask i = 31) :
    Keeps (Kept s i) (Machine.bcdRegReg f dx dy) :=
  .bind .readDSized fun _ => .bind .readDSized fun _ => .bind .readFlags fun _ =>
    .bind (writeDSized hd) fun _ => bcdFlags hm

theorem bcdMemMem {f : BcdOp} {ax ay : RegNo} (ht : Kept s i t) (hy : May s i (.a ay))
    (hw : MayWriteEA s i (t.sideEffect (.predec ay) .b) (.predec ax) .b) (hm : flagMask i = 31) :
    Ends (Kept s i) (Machine.bcdMemMem f ax ay) t :=
  predecPair_bind ht hy hw fun _ hl => .bind .readFlags fun _ => .bind (writeEA hl) fun _ => bcdFlags hm

theorem bitTest {n : Nat} (hs : ∀ y ∈ eaSideTargets ea, May s i y) (hm : flagMask i = 4) :
    Keeps (Kept s i) (Machine.bitTest n ea) :=
  .bind (openEA hs) fun _ => .bind (modifyFlags fun _ hfl => .onlyZ hm hfl rfl) fun _ => .pure

theorem bitOnly {n : Nat} (hs : ∀ y ∈ eaSideTargets ea, May s i y) (hm : flagMask i = 4) :
    Keeps (Kept s i) (Machine.bitOnly n ea) := .bind (bitTest hs hm) fun _ => .pure

theorem bitWrite {f : Word → Word → Word} {n : Nat} (ht : Kept s i t) (hw : MayWriteEA s i t ea (bitSize ea))
    (hm : flagMask i = 4) : Ends (Kept s i) (Machine.bitWrite f n ea) t := by
  refine .bind (bitTest hw.side hm t ht) fun ld u hu hkept => ?_
  obtain ⟨ld', v, h1, h2⟩ := bind_eq_ok.1 hu
  cases h2
  obtain ⟨⟨base, hb⟩, -⟩ := openEA_located h1
  exact writeEA (hb ▸ hw.loc base) _ hkept

theorem branchRule {c : Cond} {d : BranchDisp} : Keeps (Kept s i) (Machine.branchRule c d) := by
  refine .bind .readPC fun _ => .bind ?_ fun _ => .bind .readCond fun _ => .ite writePC .pure
  cases d with
  | short b => exact .pure
  | word w => exact .bind fetchExt fun _ => .pure

/-- The displacement's word leaves the registers alone. -/
theorem readDisp_moved {d : BranchDisp} {u : State} {v : Word} (h : Machine.readDisp d t = .ok v u) : Moved t u := by
  cases d with
  | short b => cases h; exact .refl t
  | word w =>
    obtain ⟨x, u', h1, h2⟩ := bind_eq_ok.1 h
    cases h2
    exact fetchExt_moved h1

theorem readDisp {d : BranchDisp} : Keeps (Kept s i) (Machine.readDisp d) := by
  cases d with
  | short b => exact .pure
  | word w => exact .bind fetchExt fun _ => .pure

theorem bsrRule {d : BranchDisp} (hm : Moved s t) (hp : ∀ y ∈ s.pushTargets, May s i y) :
    Ends (Kept s i) (Machine.bsrRule d) t := by
  refine .bind (m := readPC) hm.kept fun _ u hu _ => ?_
  cases hu
  refine .bind (readDisp t hm.kept) fun _ u hu hkept => ?_
  refine .bind (m := readPC) hkept fun _ v hv _ => ?_
  cases hv
  exact .bind (pushLong hkept (fun _ => (hm.trans (readDisp_moved hu)).getSP) hp) fun _ v _ hk => writePC v hk

theorem moveRule {src dst : Ea} (ht : Kept s i t) (hs : ∀ y ∈ eaSideTargets src, May s i y)
    (hw : MayWriteEA s i (t.sideEffect src sz) dst sz) (hm : flagMask i = 15) :
    Ends (Kept s i) (Machine.moveRule sz src dst) t :=
  .bind (fetchEA hs t ht) fun _ _ hu hkept => calcEA_bind hkept (hw.moved (fetchEA_located hu)) fun _ hl =>
    .bind (writeEA hl) fun _ => modifyFlags fun _ hfl => .butX hm hfl rfl

theorem moveaRule {an : RegNo} {src : Ea} (hs : ∀ y ∈ eaSideTargets src, May s i y) (ha : May s i (.a an)) :
    Keeps (Kept s i) (Machine.moveaRule sz an src) := .bind (fetchEA hs) fun _ => writeA ha

theorem shiftRegRule {k : ShiftKind} {c : ShiftCount} {dn : RegNo} (hd : May s i (.d dn))
    (hf : ∀ d n fl, fl.Agrees (flagMask i) s.flags → (aluShift k sz d n fl).2.Agrees (flagMask i) s.flags) :
    Keeps (Kept s i) (Machine.shiftRegRule k sz c dn) :=
  .bind .readCount fun _ => .bind .readDSized fun _ => readFlags_bind fun _ hfl =>
    .bind (writeDSized hd) fun _ => writeFlags (hf _ _ _ hfl)

theorem shiftMemRule {k : ShiftKind} (ht : Kept s i t) (hw : MayWriteEA s i t ea .w)
    (hf : ∀ d n fl, fl.Agrees (flagMask i) s.flags → (aluShift k .w d n fl).2.Agrees (flagMask i) s.flags) :
    Ends (Kept s i) (Machine.shiftMemRule k ea) t :=
  openEA_bind ht hw fun ld hl => result (g := fun fl => aluShift k .w ld.2 1 fl) hl fun _ hfl => hf _ _ _ hfl

theorem ccrImm {f : Byte → Byte → Byte} {imm : Byte} (hm : flagMask i = 31) :
    Keeps (Kept s i) (Machine.ccrImm f imm) :=
  .bind fetchExt fun _ => .bind .readCCR fun _ _ ht => ht.setCCR hm _

theorem movecStart {code : BitVec 12} {instrAddr : Word} : Keeps (Kept s i) (Machine.movecStart code instrAddr) := by
  refine .bind .from68010 fun _ => .bind .privileged fun _ => .bind fetchExt fun _ => .bind .readModel fun m => ?_
  split
  · exact .bind writePC fun _ => .raise
  · exact .ite .pure (.bind writePC fun _ => .raise)

/-! ## Several registers and alternate bytes -/

/-- Registers stored upward from `a`, each within the bytes from `b` on (R214). -/
theorem storeRegs {fc : FC} {rs : List GReg} {a b : Word} {m j : Nat} (h : May s i (.mem fc b m))
    (ha : a = b + BitVec.ofNat 32 j) (hj : j + sz.bytes * rs.length ≤ m) :
    Keeps (Kept s i) (Machine.storeRegs sz fc rs a) := by
  induction rs generalizing a j with
  | nil => exact .pure
  | cons r rs ih =>
    rw [List.length_cons, Nat.mul_add] at hj
    exact .bind .readG fun _ => .bind (memWriteFC (h.storePart ha (by omega))) fun _ =>
      ih (j := j + sz.bytes) (by rw [ha, BitVec.ofNat_add, BitVec.add_assoc]) (by omega)

/-- Registers stored downward from `a`, each within the bytes from `b` on (R215). -/
theorem storeRegsDown {an : RegNo} {count : Nat} {rs : List GReg} {a b : Word} {m j : Nat}
    (h : May s i (.mem s.dataFC b m)) (ha : a = b + BitVec.ofNat 32 j) (hj : sz.bytes * rs.length ≤ j) (hm : j ≤ m) :
    Keeps (Kept s i) (Machine.storeRegsDown sz an count rs a) := by
  induction rs generalizing a j with
  | nil => exact .pure
  | cons r rs ih =>
    rw [List.length_cons, Nat.mul_add] at hj
    have hlow : a - BitVec.ofNat 32 sz.bytes = b + BitVec.ofNat 32 (j - sz.bytes) := by
      rw [ha, show j = (j - sz.bytes) + sz.bytes by omega, BitVec.ofNat_add, ← BitVec.add_assoc, BitVec.add_sub_cancel]
      rw [show j - sz.bytes + sz.bytes - sz.bytes = j - sz.bytes by omega]
    exact .bind .storedValue fun _ => .bind (memWrite (h.storePart hlow (by omega))) fun _ =>
      ih hlow (by omega) (by omega)

theorem loadRegs {fc : FC} {rs : List GReg} {a : Word} (h : ∀ y ∈ rs.flatMap gregTargets, May s i y) :
    Keeps (Kept s i) (Machine.loadRegs sz fc rs a) := by
  induction rs generalizing a with
  | nil => exact .pure
  | cons r rs ih =>
    rw [List.flatMap_cons] at h
    exact .bind memReadFC fun _ => .bind (writeG fun y hy => h y (List.mem_append_left _ hy)) fun _ =>
      ih fun y hy => h y (List.mem_append_right _ hy)

/-- Bytes stored at every second address from `b` on (R220). -/
theorem storeAlternate {v : Word} {n m j : Nat} {a b : Word} (h : ∀ y ∈ alternateTargets s.dataFC b m, May s i y)
    (ha : a = b + BitVec.ofNat 32 (2 * j)) (hj : j + n ≤ m) : Keeps (Kept s i) (Machine.storeAlternate v n a) := by
  induction n generalizing a j with
  | zero => exact .pure
  | succ n ih =>
    have hmem : Target.mem s.dataFC a 1 ∈ alternateTargets s.dataFC b m :=
      ha ▸ List.mem_map.2 ⟨j, List.mem_range.2 (by omega), rfl⟩
    refine .bind (memWrite (h _ hmem).store) fun _ => ih (j := j + 1) ?_ (by omega)
    rw [ha, Nat.mul_add, BitVec.ofNat_add, BitVec.add_assoc]
    rfl

theorem loadAlternate {n : Nat} {a : Word} : Keeps (Kept s i) (Machine.loadAlternate n a) := by
  induction n generalizing a with
  | zero => exact .pure
  | succ n ih => exact .bind memRead fun _ => .bind ih fun _ => .pure

theorem movepLoadRule {dx ay : RegNo} {d : Half} (hd : May s i (.d dx)) :
    Keeps (Kept s i) (Machine.movepLoadRule sz dx ay d) :=
  .bind fetchExt fun _ => .bind .readA fun _ => .bind loadAlternate fun _ => writeDSized hd

theorem movepStoreRule {dx ay : RegNo} {d : Half} (hm : Moved s t)
    (h : ∀ y ∈ alternateTargets s.dataFC (s.getA ay + sext16 d) sz.bytes, May s i y) :
    Ends (Kept s i) (Machine.movepStoreRule sz dx ay d) t := by
  refine .bind (fetchExt t hm.kept) fun _ u hu hkept => ?_
  obtain ⟨p, k, rfl⟩ := hm.trans (fetchExt_moved hu)
  exact storeAlternate (j := 0) h (BitVec.add_zero _).symm (by omega) _ hkept

end Kept

end Sys2Proof.Machine
end

section
/-! SUPPORT. Every instruction as one cycle whose rule leaves alone what the instruction does not write (R128), and what
then stands before the end of the step or before the exception. -/

namespace Sys2Proof.Machine

/-! ## What a cycle may free -/

/-- A target that the instruction may leave with a free value: what it writes, its own stack register, the flags it
writes, and the control register of MOVEC (R135, D23). -/
structure Frees (s : State) (i : Instr) (y : Target) : Prop where
  within : y.within (instrWrites s i) (fun r => writesStackReg r i)
  flags : y.flagsWithin (flagMask i)
  control : ∀ c, y = .control c → writesControl i = true

theorem Frees.of_writes {s : State} {i : Instr} {y : Target} (h : y ∈ instrWrites s i) : Frees s i y where
  within := (within_instrWrites s i _ h).1
  flags := (within_instrWrites s i (fun _ => true) h).2 _
  control c hc := by
    have hp := List.all_eq_true.1 (instrWrites_plain s i) y h
    rw [hc] at hp
    cases hp

/-- The instruction is one cycle, which frees no more than it may where its rule ends early, and whose rule leaves alone
what it does not write. A cycle without a prefetch, that of BKPT, does not end well. -/
def Runs (s : State) (i : Instr) : Prop :=
  ∃ b ts rule, exec i s = cycleWith b ts rule s ∧ ((∃ x u, rule s.started = .error x u) → ∀ y ∈ ts, Frees s i y) ∧
    Ends (Done s i) rule s.started ∧ (b = true ∨ ∀ u, rule s.started ≠ .ok () u)

namespace Runs

variable {s : State} {i : Instr} {rule : Op Unit}

/-- A cycle that frees what the instruction writes, and no flag. -/
theorem plain (hc : exec i s = cycle (instrWrites s i) rule s) (h : Ends (Kept s i) rule s.started) : Runs s i :=
  ⟨true, _, _, hc, fun _ _ hy => .of_writes hy, h.done, .inl rfl⟩

/-- A cycle that frees what the instruction writes, with its flags. -/
theorem withFlagsDone {m : Byte} (hm : flagMask i = m.setWidth 16)
    (hc : exec i s = cycle (.ccr m :: instrWrites s i) rule s) (h : Ends (Done s i) rule s.started) : Runs s i := by
  refine ⟨true, _, _, hc, fun _ y hy => ?_, h, .inl rfl⟩
  rcases List.mem_cons.1 hy with rfl | hy
  · exact ⟨trivial, hm ▸ BitVec.and_not_self _, fun _ h => nomatch h⟩
  · exact .of_writes hy

theorem withFlags {m : Byte} (hm : flagMask i = m.setWidth 16)
    (hc : exec i s = cycle (.ccr m :: instrWrites s i) rule s) (h : Ends (Kept s i) rule s.started) : Runs s i :=
  .withFlagsDone hm hc h.done

end Runs

/-! ## What an instruction may write -/

section
variable {s : State} {i : Instr}

theorem kept_started (s : State) (i : Instr) : Kept s i s.started := (Moved.started s).kept

theorem may_of_eq {ts : List Target} (h : instrWrites s i = ts) : ∀ y ∈ ts, May s i y := fun _ hy _ => h ▸ hy

theorem may_append_left {xs ys : List Target} (h : instrWrites s i = xs ++ ys) : ∀ y ∈ xs, May s i y :=
  fun y hy => may_of_eq h y (List.mem_append_left ys hy)

theorem may_append_right {xs ys : List Target} (h : instrWrites s i = xs ++ ys) : ∀ y ∈ ys, May s i y :=
  fun y hy => may_of_eq h y (List.mem_append_right xs hy)

theorem may_last {xs : List Target} {y : Target} (h : instrWrites s i = xs ++ [y]) : May s i y :=
  may_append_right h y List.mem_cons_self

theorem may_head {y : Target} {ys : List Target} (h : instrWrites s i = y :: ys) : May s i y :=
  may_of_eq h y List.mem_cons_self

/-- The location of a mode in program space depends on the address of its word; that of the others does not. -/
theorem State.locate_base {t : State} {ea : Ea} {k : EaClass} {sz : Size}
    (hk : k.admits 7 2 = false ∧ k.admits 7 3 = false)
    (h : ea.ok k sz = true) (sz' : Size) (a b : Word) : t.locate ea sz' a = t.locate ea sz' b := by
  cases ea
  case pcDisp d =>
    have : (k.admits 7 2 && true) = true := h
    rw [hk.1] at this
    cases this
  case pcIndex x =>
    have : (k.admits 7 3 && true) = true := h
    rw [hk.2] at this
    cases this
  all_goals rfl

/-- The destination of an instruction that lists its effective address (R161: never in program space). -/
theorem mayWriteEA {ea : Ea} {k : EaClass} {sz sz' : Size} (h : instrWrites s i = s.eaTargets ea sz')
    (hk : k.admits 7 2 = false ∧ k.admits 7 3 = false) (hwf : i.wf = true → ea.ok k sz = true) :
    MayWriteEA s i s.started ea sz' where
  side := may_append_left h
  loc base y hy hw := may_append_right h y (State.locate_base (t := s) hk (hwf hw) sz' base s.pc ▸ hy) hw

/-- A destination located after the side effect of a source. -/
theorem mayWritePair {src dst : Ea} {k : EaClass} {sz : Size} (h : instrWrites s i = s.pairTargets src dst sz)
    (hk : k.admits 7 2 = false ∧ k.admits 7 3 = false) (hwf : i.wf = true → dst.ok k sz = true) :
    MayWriteEA s i (s.started.sideEffect src sz) dst sz := by
  have hw : MayWriteEA s i (s.sideEffect src sz) dst sz :=
    { side := fun y hy => may_append_right h y (List.mem_append_left _ hy)
      loc := fun base y hy hwf' => may_append_right h y (List.mem_append_right _
        (State.locate_base hk (hwf hwf') sz base (s.sideEffect src sz).pc ▸ hy)) hwf' }
  exact hw.moved ((Moved.started s).sideEffect src sz)

theorem mayWritePredec {ax ay : RegNo} {sz : Size} (h : instrWrites s i = s.pairTargets (.predec ay) (.predec ax) sz) :
    MayWriteEA s i (s.started.sideEffect (.predec ay) sz) (.predec ax) sz :=
  mayWritePair (k := .memoryAlterable) h (by decide) fun _ => by
    have := ax.isLt
    simp [Ea.ok, Ea.immFits, EaClass.admitsField, EaClass.admits, Ea.field]

/-- A control mode updates no register (R113). -/
theorem side_of_control {ea : Ea} {sz : Size} (hwf : i.wf = true → ea.ok .control sz = true) :
    ∀ y ∈ eaSideTargets ea, May s i y := fun y hy hw => by
  have hok := hwf hw
  cases ea
  case postinc | predec => cases hok
  all_goals cases hy

theorem State.sideEffect_of_control {t : State} {ea : Ea} {sz : Size} (h : ea.ok .control sz = true) (sz' : Size) :
    t.sideEffect ea sz' = t := by
  cases ea
  case postinc | predec => cases h
  all_goals rfl

end

end Sys2Proof.Machine
end

section
/-! SUPPORT. The rule of every instruction leaves alone what the instruction does not write. -/

namespace Sys2Proof.Machine

/-! ## The last writes of the system instructions -/

namespace Kept

variable {s t : State} {i : Instr}

/-- A write of the status word, with what RTE and STOP write after it. -/
theorem done_setSR (h : Kept s i t) (hi : writesSystemByte i = true) (hm : flagMask i = 31) (v : Half) (p : Word)
    {c : RunCondition} (hc : (∀ imm, i ≠ .stop imm) → c = t.run) : Done s i { t.setSR v with pc := p, run := c } where
  frame hw := {
    data := (h.left hw).frame.data
    address := fun n h7 hn => by
      have hr : ({ t.setSR v with pc := p, run := c } : State).getA n = t.getA n := State.getA_of_ne_seven h7 rfl
      exact hr.trans ((h.left hw).frame.address n h7 hn)
    stack := (h.left hw).frame.stack
    memory := (h.left hw).frame.memory }
  flags := .all hm
  system hs := by rw [hi] at hs; cases hs
  control hctl := h.done.control hctl
  run hr := (hc hr).trans (h.done.run hr)
  opcode := h.done.opcode
  cfg := h.cfg
  icount := h.done.icount

/-- A write of a control register: MOVEC's, or USP. -/
theorem done_writeControl (h : Kept s i t) {c : ControlReg} (v : Word)
    (hown : ∀ r, c.stackReg = some r → writesStackReg r i = true) (hctl : writesControl i = true ∨ c = .usp) :
    Done s i (t.writeControl c v) where
  frame hw := ((h.left hw).trans (State.left_writeControl v hown)).frame
  flags := by simpa [State.flags] using h.flags
  system _ := by rw [State.writeControl_sr]; exact h.system
  control hn := by
    rcases hctl with hctl | rfl
    · rw [hctl] at hn; cases hn
    · exact h.done.control hn
  run hr := (t.writeControl_run c v).trans (h.done.run hr)
  opcode := (t.writeControl_opcode c v).trans h.done.opcode
  cfg := (t.writeControl_cfg c v).trans h.cfg
  icount := (t.writeControl_icount c v).trans h.done.icount

end Kept

/-! ## Gates -/

theorem privileged_same {t u : State} {x : Unit} (h : privileged t = .ok x u) : u = t := by
  unfold privileged at h
  split at h <;> cases h
  rfl

theorem from68010_same {t u : State} {x : Unit} (h : from68010 t = .ok x u) : u = t := by
  unfold from68010 at h
  split at h <;> cases h
  rfl

theorem refuse32_same {t u : State} {d : BranchDisp} {x : Unit} (h : refuse32 d t = .ok x u) : u = t := by
  simp only [refuse32, readModel_bind] at h
  split at h <;> cases h
  rfl

/-- MOVEC goes on with the register its code names (R413). -/
theorem movecStart_code {t u : State} {code : BitVec 12} {a : Word} {c : ControlReg}
    (h : movecStart code a t = .ok c u) : controlRegOf code = some c := by
  obtain ⟨_, _, -, h⟩ := bind_eq_ok.1 h
  obtain ⟨_, _, -, h⟩ := bind_eq_ok.1 h
  obtain ⟨_, _, -, h⟩ := bind_eq_ok.1 h
  obtain ⟨_, _, -, h⟩ := bind_eq_ok.1 h
  cases hc : controlRegOf code with
  | none =>
    simp only [hc] at h
    cases h
  | some r =>
    simp only [hc] at h
    split at h <;> cases h
    rfl

/-! ## The instructions with a shape of their own -/

section
variable {s : State}

theorem runs_moves (sz : Size) (toMem : Bool) (r : GReg) (ea : Ea) : Runs s (.moves sz toMem r ea) := by
  have hside := may_append_left (s := s) (i := .moves sz toMem r ea) rfl
  refine .plain rfl (.bind (Keeps.from68010 _ (kept_started s _)) fun _ t h10 _ => ?_)
  rw [from68010_same h10]
  refine .bind (Keeps.privileged _ (kept_started s _)) fun _ t hp _ => ?_
  rw [privileged_same hp]
  refine .bind (Kept.fetchExt _ (kept_started s _)) fun _ t ht hkept => ?_
  have hm := (Moved.started s).trans (fetchExt_moved ht)
  refine .bind (Keeps.readG t hkept) fun v u hu hkept => ?_
  rw [readG_run] at hu
  cases hu
  refine .bind (Kept.calcEA hside t hkept) fun loc u hu hkept => ?_
  obtain ⟨⟨base, hloc⟩, -⟩ := calcEA_located hu
  cases toMem with
  | true =>
    refine Kept.memWriteFC (May.store fun hw => ?_) u hkept
    rw [hloc, hm.locate, State.locate_base (k := .memoryAlterable) (by decide) hw sz base s.pc]
    exact List.mem_append_right _ List.mem_cons_self
  | false =>
    exact Keeps.bind Kept.memReadFC
      (fun _ => Kept.writeMoves (may_append_right (xs := eaSideTargets ea) rfl)) u hkept

theorem runs_movemToMem (sz : Size) (mask : Half) (ea : Ea) : Runs s (.movemToMem sz mask ea) := by
  have hok : (Instr.movemToMem sz mask ea).wf = true → ea.ok .controlAlterable sz = true := fun hw =>
    (Bool.and_eq_true_iff.1 hw).2
  refine .plain rfl (.bind (Kept.fetchExt _ (kept_started s _)) fun _ t ht hkept => ?_)
  refine .bind (Kept.calcEA (fun y hy hw => ?_) t hkept) fun loc u hu hkept => ?_
  · have := hok hw
    cases ea
    case postinc | predec => cases this
    all_goals cases hy
  · obtain ⟨⟨base, hloc⟩, -⟩ := calcEA_located hu
    refine Kept.storeRegs (j := 0) (fun hw => ?_) (BitVec.add_zero _).symm (Nat.zero_add _).le u hkept
    rw [hloc, ((Moved.started s).trans (fetchExt_moved ht)).locate,
      State.locate_base (by decide) (hok hw) sz base s.pc]
    exact List.mem_cons_self

theorem runs_movemToPredec (sz : Size) (mask : Half) (an : RegNo) : Runs s (.movemToPredec sz mask an) := by
  have hlen : (maskRegsPredec mask).length = (maskRegs mask).length := by simp [maskRegs, maskRegsPredec]
  refine .plain rfl (.bind (Kept.fetchExt _ (kept_started s _)) fun _ t ht hkept => ?_)
  obtain ⟨p, k, rfl⟩ := (Moved.started s).trans (fetchExt_moved ht)
  refine Ends.bind (m := readA an) hkept fun a u hu hkept => ?_
  cases hu
  refine .bind (Kept.storeRegsDown (fun _ => List.mem_cons_of_mem _ List.mem_cons_self)
    (BitVec.sub_add_cancel _ _).symm ?_ le_rfl _ hkept) fun _ u _ hkept => Kept.writeA (may_head rfl) u hkept
  rw [hlen]
  exact le_rfl

theorem runs_link (an : RegNo) (d : Half) : Runs s (.link an d) := by
  have hpush := may_append_left (s := s) (i := .link an d) rfl
  have h7 := hpush _ List.mem_cons_self
  refine .plain rfl (.bind (Kept.fetchExt _ (kept_started s _)) fun _ t ht hkept => ?_)
  obtain ⟨p, k, rfl⟩ := (Moved.started s).trans (fetchExt_moved ht)
  refine Ends.bind (m := readSP) hkept fun sp u hu hkept => ?_
  cases hu
  exact Keeps.bind (Kept.writeSP h7) (fun _ => .bind .readA fun _ =>
    .bind (Kept.memWrite (hpush _ (List.mem_cons_of_mem _ List.mem_cons_self)).store) fun _ =>
    .bind (Kept.writeA (may_last rfl)) fun _ => .bind .readSP fun _ => Kept.writeSP h7) _ hkept

/-- PEA and JSR push after a control mode, which leaves A7 alone (R223, R376). -/
theorem calcEA_pushLong {i : Instr} {α : Type} {ea : Ea} {k : Loc → Op α}
    (hwf : i.wf = true → ea.ok .control .l = true)
    (hk : ∀ loc u, Kept s i u → (i.wf = true → u.getSP = s.getSP) → Ends (Kept s i) (k loc) u) :
    Ends (Kept s i) (calcEA ea .l >>= k) s.started :=
  .bind (Kept.calcEA (side_of_control hwf) _ (kept_started s i)) fun loc u hu hkept => hk loc u hkept fun hw => by
    have hm := (calcEA_located hu).2
    rw [State.sideEffect_of_control (hwf hw)] at hm
    exact ((Moved.started s).trans hm).getSP

theorem runs_jsr (ea : Ea) : Runs s (.jsr ea) :=
  .plain rfl (calcEA_pushLong id fun _ u hkept hsp => Ends.bind (m := readPC) hkept fun _ _ hu hkept => by
    cases hu
    exact .bind (Kept.pushLong hkept hsp (may_append_left rfl)) fun _ v _ hk => Kept.writePC v hk)

theorem runs_bsr {i : Instr} {d : BranchDisp} (h : instrWrites s i = s.pushTargets ++ [.pc]) :
    Ends (Kept s i) (bsrRule d) s.started := Kept.bsrRule (Moved.started s) (may_append_left h)

theorem runs_bccL (c : Cond) : Runs s (.bccL c) := by
  refine .plain rfl (.bind (Keeps.refuse32 _ (kept_started s _)) fun _ t ht _ => ?_)
  rw [refuse32_same ht]
  by_cases hc : c = .f
  · subst hc
    exact runs_bsr rfl
  · rw [if_neg hc]
    exact Kept.branchRule _ (kept_started s _)

theorem runs_moveFromSr (ea : Ea) : Runs s (.moveFromSr ea) := by
  have write : Ends (Kept s (.moveFromSr ea)) (do
      let loc ← calcEA ea .w
      let v ← readSR
      writeEA loc .w (v.setWidth 32)) s.started :=
    Kept.calcEA_bind (kept_started s _) (mayWriteEA (k := .dataAlterable) rfl (by decide) id) fun _ hl =>
      .bind .readSR fun _ => Kept.writeEA hl
  refine .plain rfl (Ends.bind (m := readModel) (kept_started s _) fun m u hu _ => ?_)
  cases hu
  split
  · refine .bind (Keeps.privileged _ (kept_started s _)) fun _ t hp _ => ?_
    rw [privileged_same hp]
    exact write
  · exact write

theorem srImm_done {i : Instr} {f : Half → Half → Half} {imm : Half} (hi : writesSystemByte i = true)
    (hm : flagMask i = 31) : Ends (Done s i) (srImm f imm) s.started :=
  .bindTo Kept.done (Keeps.privileged _ (kept_started s i)) fun _ u _ hkept =>
    .bindTo Kept.done (Kept.fetchExt u hkept) fun _ u _ hkept => hkept.done_setSR hi hm _ u.pc fun _ => rfl

theorem runs_moveToSr (ea : Ea) : Runs s (.moveToSr ea) :=
  .withFlagsDone rfl rfl (.bindTo Kept.done (Keeps.privileged _ (kept_started s _)) fun _ u _ hkept =>
    .bindTo Kept.done (Kept.fetchEA (may_of_eq rfl) u hkept) fun _ u _ hkept =>
      hkept.done_setSR rfl rfl _ u.pc fun _ => rfl)

theorem runs_stop (imm : Half) : Runs s (.stop imm) :=
  .withFlagsDone rfl rfl (.bindTo Kept.done (Keeps.privileged _ (kept_started s _)) fun _ u _ hkept =>
    .bindTo Kept.done (Kept.fetchExt u hkept) fun _ u _ hkept =>
      hkept.done_setSR rfl rfl _ u.pc fun h => absurd rfl (h imm))

theorem runs_rte : Runs s .rte := by
  have load : ∀ {sp sr pc t}, Kept s .rte t → Ends (Done s .rte) (do writeSP sp; writeSR sr; writePC pc) t :=
    fun {_ _ pc t} h => .bindTo Kept.done (Kept.writeSP (may_head rfl) t h) fun _ u _ hkept =>
      hkept.done_setSR rfl rfl _ pc fun _ => rfl
  refine .withFlagsDone rfl rfl (.bindTo Kept.done (Keeps.privileged _ (kept_started s _)) fun _ u _ hkept => ?_)
  refine .bindTo Kept.done (Keeps.readSP u hkept) fun sp u _ hkept => ?_
  refine .bindTo Kept.done (Kept.memReadFC u hkept) fun sr u _ hkept => ?_
  refine .bindTo Kept.done (Kept.memReadFC u hkept) fun npc u _ hkept => ?_
  refine .bindTo Kept.done (Kept.memReadFC u hkept) fun fw u _ hkept => ?_
  split
  · exact load hkept
  · exact load hkept
  · exact hkept.done

theorem runs_moveToUsp (an : RegNo) : Runs s (.moveToUsp an) :=
  ⟨true, [], _, rfl, fun _ _ h => (nomatch h), .bindTo Kept.done (Keeps.privileged _ (kept_started s _)) fun _ u _ hkept =>
    .bindTo Kept.done (Keeps.readA (n := an) u hkept) fun v u _ hkept =>
      hkept.done_writeControl (c := .usp) v (fun r hr => by cases hr; rfl) (.inr rfl), .inl rfl⟩

/-- The stack register that MOVEC writes is its own (R45). -/
theorem writesStackReg_movecTo {code : BitVec 12} {c : ControlReg} {r : GReg} (h : controlRegOf code = some c) :
    ∀ q, c.stackReg = some q → writesStackReg q (.movecTo r code) = true := fun q hq => by
  cases c
  case usp | isp | msp =>
    cases hq
    exact decide_eq_true h
  all_goals cases hq

theorem runs_movecTo (r : GReg) (code : BitVec 12) : Runs s (.movecTo r code) := by
  refine ⟨true, _, _, rfl, fun _ y hy => ?_,
    .bindTo Kept.done (Kept.movecStart _ (kept_started s _)) fun c u hu hkept =>
    .bindTo Kept.done (Keeps.readG u hkept) fun v u _ hkept =>
      hkept.done_writeControl v (writesStackReg_movecTo (movecStart_code hu)) (.inl rfl), .inl rfl⟩
  obtain ⟨c, hc, rfl⟩ := List.mem_map.1 hy
  have hcode : controlRegOf code = some c := (Option.filter_eq_some_iff.1 (Option.mem_toList.1 hc)).1
  exact ⟨writesStackReg_movecTo hcode, trivial, fun _ _ => rfl⟩

/-- A code that is not valid frees nothing (R413). -/
theorem runs_movecFrom (r : GReg) (code : BitVec 12) : Runs s (.movecFrom r code) := by
  have hread : ∀ c, Keeps (Kept s (.movecFrom r code)) (fun t => .ok (t.readControl c) t : Op Word) := fun _ _ ht => ht
  refine ⟨true, _, _, rfl, fun _ y hy => ?_, ?_, .inl rfl⟩
  · split at hy
    · exact .of_writes hy
    · cases hy
  · exact Kept.done (Keeps.bind Kept.movecStart (fun c => .bind (hread c) fun _ => Kept.writeG (may_of_eq rfl)) _
      (kept_started s _))

/-- ADDQ and SUBQ to an address register write it and no flag, and cannot fail (R244). -/
theorem runs_quickOp_areg {i : Instr} {ts : List Target} {f : Alu} {g : Word → Word → Word} {sz : Size} {q n : RegNo}
    (hc : exec i s = cycle ts (quickOp f g sz q (.areg n)) s) (hw : instrWrites s i = [.a n]) : Runs s i :=
  ⟨true, _, _, hc, fun ⟨_, _, h⟩ => (nomatch h), ((kept_started s i).setA (may_head hw) _).done, .inl rfl⟩

/-- ADDQ and SUBQ elsewhere change a location, with all flags (R244). -/
theorem runs_quickOp {i : Instr} {f : Alu} {g : Word → Word → Word} {sz : Size} {q : RegNo} {ea : Ea}
    (hea : ∀ n, ea ≠ .areg n) (hm : flagMask i = 31)
    (hc : exec i s = cycle (.ccr 31 :: s.eaTargets ea sz) (quickOp f g sz q ea) s)
    (hw : instrWrites s i = s.eaTargets ea sz) (hwf : i.wf = true → ea.ok .alterable sz = true) : Runs s i :=
  .withFlags (m := 31) hm (hw ▸ hc) (Kept.quickOp (kept_started s i) (mayWriteEA hw (by decide) hwf) hea
    fun _ _ _ _ _ => .all hm)

/-- Without a callback BKPT is illegal (R440). -/
theorem runs_bkpt (v : RegNo) (h : s.cfg.bkptPresent = false) : Runs s (.bkpt v) := by
  have hrun : (do
      writePC s.pc
      fun t =>
        if t.cfg.bkptPresent then .ok () (t.edited (bkptCallback t v))
        else .error (.exc .illegalInstruction) t : Op Unit) s.started =
      .error (.exc .illegalInstruction) { s.started with pc := s.pc } :=
    (bind_ok (writePC_run s.started s.pc)).trans (if_neg (by rw [Bool.not_eq_true]; exact h))
  refine ⟨false, [], _, rfl, fun _ _ h => (nomatch h), ?_, .inr fun u hu => ?_⟩
  · rw [Ends, hrun]
    exact ((kept_started s (.bkpt v)).withCounts s.pc s.draws).done
  · rw [hrun] at hu
    cases hu

end

end Sys2Proof.Machine
end

section
/-! SUPPORT. Every instruction runs as one cycle within what it may write. -/

namespace Sys2Proof.Machine

/-- The rotates leave X alone (R310). -/
theorem aluShift_rotate_x {k : ShiftKind} (hk : k = .rol ∨ k = .ror) (sz : Size) (d : Word) (n : Nat) (f : Ccr) :
    (aluShift k sz d n f).2.x = f.x := by
  have hxw : (shift k sz.bits d.toNat n f.x).xw = none := by
    unfold shift
    split
    · rfl
    · rcases hk with rfl | rfl <;> rfl
  simp only [aluShift, flagsShift, hxw, Option.getD_none]

theorem flagMask_quick {sz : Size} {q : RegNo} {ea : Ea} (h : ∀ n, ea ≠ .areg n) :
    flagMask (.addq sz q ea) = 31 ∧ flagMask (.subq sz q ea) = 31 := by
  cases ea
  case areg n => exact absurd rfl (h n)
  all_goals exact ⟨rfl, rfl⟩

/-- Every instruction runs within what it may write. -/
theorem exec_runs (i : Instr) (s : State) (h : handsOver s i = false) : Runs s i := by
  have hstart := kept_started s i
  cases i
  case oriCcr | andiCcr | eoriCcr => exact .withFlags rfl rfl (.of (Kept.ccrImm rfl) hstart)
  case oriSr | andiSr | eoriSr => exact .withFlagsDone rfl rfl (srImm_done rfl rfl)
  case moveToSr => exact runs_moveToSr _
  case moveToUsp => exact runs_moveToUsp _
  case movecTo => exact runs_movecTo _ _
  case movecFrom => exact runs_movecFrom _ _
  case stop => exact runs_stop _
  case rte => exact runs_rte
  case bkpt => exact runs_bkpt _ h
  case moves => exact runs_moves _ _ _ _
  case movemToMem => exact runs_movemToMem _ _ _
  case movemToPredec => exact runs_movemToPredec _ _ _
  case link => exact runs_link _ _
  case jsr => exact runs_jsr _
  case bccL => exact runs_bccL _
  case moveFromSr => exact runs_moveFromSr _
  case subi | addi =>
    exact .withFlags rfl rfl (Kept.aluImm hstart (mayWriteEA (k := .dataAlterable) rfl (by decide) fun hw =>
      (Bool.and_eq_true_iff.1 hw).2) fun _ _ _ _ _ => .all rfl)
  case ori | andi | eori =>
    exact .withFlags rfl rfl (Kept.aluImm hstart (mayWriteEA (k := .dataAlterable) rfl (by decide) fun hw =>
      (Bool.and_eq_true_iff.1 hw).2) fun _ _ _ _ hfl => .butX rfl hfl rfl)
  case cmpi =>
    exact .withFlags rfl rfl (.of (.bind Kept.fetchImm (fun _ => .bind (Kept.fetchEA (may_of_eq rfl)) fun _ =>
      Kept.modifyFlags fun _ hfl => .butX rfl hfl rfl)) hstart)
  case btstI =>
    exact .withFlags rfl rfl (.of (.bind Kept.fetchExt (fun _ => Kept.bitOnly (may_of_eq rfl) rfl)) hstart)
  case bchgI | bclrI | bsetI =>
    exact .withFlags rfl rfl (.bind (Kept.fetchExt _ hstart) fun _ _ hu hkept => Kept.bitWrite hkept
      ((mayWriteEA (k := .dataAlterable) rfl (by decide) id).moved (fetchExt_moved hu)) rfl)
  case btstD =>
    exact .withFlags rfl rfl (.of (.bind .readD (fun _ => Kept.bitOnly (may_of_eq rfl) rfl)) hstart)
  case bchgD dn _ | bclrD dn _ | bsetD dn _ =>
    exact .withFlags rfl rfl (Ends.bind (m := readD dn) hstart fun _ _ hu hkept => by
      cases hu
      exact Kept.bitWrite hkept (mayWriteEA (k := .dataAlterable) rfl (by decide) id) rfl)
  case tas =>
    exact .withFlags rfl rfl (Kept.openEA_bind hstart (mayWriteEA (k := .dataAlterable) rfl (by decide) id)
      fun _ hl => .bind (Kept.modifyFlags fun _ hfl => .butX rfl hfl rfl) fun _ => Kept.writeEA hl)
  case movepLoadW | movepLoadL => exact .plain rfl (.of (Kept.movepLoadRule (may_head rfl)) hstart)
  case movepStoreW | movepStoreL => exact .plain rfl (Kept.movepStoreRule (Moved.started s) (may_of_eq rfl))
  case moveB | moveL | moveW =>
    exact .withFlags rfl rfl (Kept.moveRule hstart (may_append_left rfl)
      (mayWritePair (k := .dataAlterable) rfl (by decide) fun hw => (Bool.and_eq_true_iff.1 hw).2) rfl)
  case moveaL | moveaW => exact .plain rfl (.of (Kept.moveaRule (may_append_left rfl) (may_last rfl)) hstart)
  case moveq dn imm =>
    refine .withFlags rfl (show execMoveq dn imm s = _ from rfl) ?_
    exact .of (.bind (Kept.writeD (may_head rfl))
      (fun _ => Kept.modifyFlags fun _ hfl => .butX rfl hfl rfl)) hstart
  case neg | negx =>
    exact .withFlags rfl rfl (Kept.aluUnary hstart (mayWriteEA (k := .dataAlterable) rfl (by decide) id)
      fun _ _ _ _ => .all rfl)
  case notEa =>
    exact .withFlags rfl rfl (Kept.aluUnary hstart (mayWriteEA (k := .dataAlterable) rfl (by decide) id)
      fun _ _ _ hfl => .butX rfl hfl rfl)
  case nbcd =>
    exact .withFlags rfl rfl (Kept.openEA_bind hstart (mayWriteEA (k := .dataAlterable) rfl (by decide) id)
      fun _ hl => .bind .readFlags fun _ => .bind (Kept.writeEA hl) fun _ => Kept.bcdFlags rfl)
  case moveFromCcr =>
    exact .plain rfl (.bind (Keeps.from68010 _ hstart) fun _ _ hu hkept => Kept.calcEA_bind hkept
      (from68010_same hu ▸ mayWriteEA (k := .dataAlterable) rfl (by decide) id) fun _ hl =>
        .bind .readCCR fun _ => Kept.writeEA hl)
  case moveToCcr =>
    exact .withFlags rfl rfl (.of (.bind (Kept.fetchEA (may_of_eq rfl)) (fun _ _ ht => ht.setCCR rfl _)) hstart)
  case clr =>
    exact .withFlags rfl rfl (Kept.calcEA_bind hstart (mayWriteEA (k := .dataAlterable) rfl (by decide) id)
      fun _ hl => .bind (Kept.writeEA hl) fun _ => Kept.modifyFlags fun _ hfl => .butX rfl hfl rfl)
  case scc =>
    exact .plain rfl (Kept.calcEA_bind hstart (mayWriteEA (k := .dataAlterable) rfl (by decide) id)
      fun _ hl => .bind .readCond fun _ => Kept.writeEA hl)
  case moveFromUsp =>
    exact .plain rfl (.of (.bind .privileged (fun _ _ ht => ht.setA (may_head rfl) _)) hstart)
  case chk =>
    exact .withFlags rfl rfl (.of (.bind (Kept.fetchEA (may_of_eq rfl)) (fun _ => .bind .readD fun _ =>
      .ite (.bind (Kept.chkFlags rfl) fun _ => .raise) (.ite (.bind (Kept.chkFlags rfl) fun _ => .raise) .pure))) hstart)
  case lea =>
    exact .plain rfl (.of (.bind (Kept.calcEA (side_of_control id)) (fun _ => Kept.writeA (may_head rfl))) hstart)
  case jmp =>
    exact .plain rfl (.of (.bind (Kept.calcEA (side_of_control id)) (fun _ => Kept.writePC)) hstart)
  case pea =>
    exact .plain rfl (calcEA_pushLong id fun _ _ hkept hsp => Kept.pushLong hkept hsp (may_of_eq rfl))
  case tst =>
    exact .withFlags rfl rfl (.of (.bind (Kept.fetchEA (may_of_eq rfl))
      (fun _ => Kept.modifyFlags fun _ hfl => .butX rfl hfl rfl)) hstart)
  case swap dn =>
    refine .withFlags rfl (show execSwap dn s = _ from rfl) ?_
    exact .of (.bind .readD (fun _ => .bind (Kept.writeD (may_head rfl)) fun _ =>
      Kept.modifyFlags fun _ hfl => .butX rfl hfl rfl)) hstart
  case extL dn =>
    refine .withFlags rfl (show execExtL dn s = _ from rfl) ?_
    exact .of (.bind .readD (fun _ => .bind (Kept.writeD (may_head rfl)) fun _ =>
      Kept.modifyFlags fun _ hfl => .butX rfl hfl rfl)) hstart
  case extW dn =>
    refine .withFlags rfl (show execExtW dn s = _ from rfl) ?_
    exact .of (.bind .readD (fun _ => .bind (Kept.writeDSized (may_head rfl)) fun _ =>
      Kept.modifyFlags fun _ hfl => .butX rfl hfl rfl)) hstart
  case movemFromMem _ _ ea =>
    exact .plain rfl (.of (.bind Kept.fetchExt (fun _ => .bind (Kept.calcEA (side_of_control fun hw =>
      (Bool.and_eq_true_iff.1 hw).2)) fun _ => .bind (Kept.loadRegs (may_of_eq rfl)) fun _ => .pure)) hstart)
  case movemFromPostinc =>
    exact .plain rfl (.of (.bind Kept.fetchExt (fun _ => .bind .readA fun _ =>
      .bind (Kept.loadRegs (may_append_left rfl)) fun _ => Kept.writeA (may_last rfl))) hstart)
  case illegal | trap | lineA | lineF => exact .plain rfl (.of .raise hstart)
  case trapv => exact .plain rfl (.of (.bind .readFlags (fun _ => .ite .raise .pure)) hstart)
  case reset => exact .plain rfl (.of Keeps.privileged hstart)
  case nop => exact .plain rfl (.of (Keeps.pure (a := ())) hstart)
  case unlk =>
    exact .plain rfl (.of (.bind .readA (fun _ => .bind (Kept.writeSP (may_head rfl)) fun _ =>
      .bind (Kept.popLong (may_head rfl)) fun _ => Kept.writeA (may_last (xs := [.a 7]) rfl))) hstart)
  case rtd =>
    exact .plain rfl (.of (.bind .from68010 (fun _ => .bind Kept.fetchExt fun _ => .bind .readSP fun _ =>
      .bind Kept.memRead fun _ => .bind (Kept.writeSP (may_head rfl)) fun _ => Kept.writePC)) hstart)
  case rts => exact .plain rfl (.of (.bind (Kept.popLong (may_head rfl)) (fun _ => Kept.writePC)) hstart)
  case rtr =>
    exact .withFlags rfl rfl (.of (.bind .readSP (fun _ => .bind Kept.memRead fun _ =>
      .bind (Kept.writeSP (may_head rfl)) fun _ => .bind (Kept.popLong (may_head rfl)) fun _ =>
      .bind (fun _ ht => ht.setCCR rfl _) fun _ => Kept.writePC)) hstart)
  case addq sz q ea =>
    by_cases hea : ∃ n, ea = .areg n
    · obtain ⟨n, rfl⟩ := hea
      exact runs_quickOp_areg (show execAddq sz q (.areg n) s = cycle _ (quickOp _ _ _ _ _) s from rfl) rfl
    · exact runs_quickOp (fun n e => hea ⟨n, e⟩) (flagMask_quick fun n e => hea ⟨n, e⟩).1 rfl rfl fun hw =>
        (Bool.and_eq_true_iff.1 hw).1
  case subq sz q ea =>
    by_cases hea : ∃ n, ea = .areg n
    · obtain ⟨n, rfl⟩ := hea
      exact runs_quickOp_areg (show execSubq sz q (.areg n) s = cycle _ (quickOp _ _ _ _ _) s from rfl) rfl
    · exact runs_quickOp (fun n e => hea ⟨n, e⟩) (flagMask_quick fun n e => hea ⟨n, e⟩).2 rfl rfl fun hw =>
        (Bool.and_eq_true_iff.1 hw).1
  case dbcc =>
    exact .plain rfl (.of (.bind .readPC (fun _ => .bind Kept.fetchExt fun _ => .bind .readCond fun _ =>
      .ite .pure (.bind .readDSized fun _ => .bind (Kept.writeDSized (may_head rfl)) fun _ =>
        .ite .pure Kept.writePC))) hstart)
  case bra | bcc => exact .plain rfl (.of (.bind .refuse32 (fun _ => Kept.branchRule)) hstart)
  case bsr =>
    exact .plain rfl (.bind (Keeps.refuse32 _ hstart) fun _ _ hu _ => refuse32_same hu ▸ runs_bsr rfl)
  case subToReg | addToReg =>
    exact .withFlags rfl rfl (.of (Kept.aluToReg (may_append_left rfl) (may_last rfl)
      (fun _ _ _ _ _ => .all rfl)) hstart)
  case orToReg | andToReg =>
    exact .withFlags rfl rfl (.of (Kept.aluToReg (may_append_left rfl) (may_last rfl)
      (fun _ _ _ _ hfl => .butX rfl hfl rfl)) hstart)
  case subToMem | addToMem =>
    exact .withFlags rfl rfl (Kept.aluToEa hstart (mayWriteEA (k := .memoryAlterable) rfl (by decide) id)
      fun _ _ _ _ _ => .all rfl)
  case orToMem | andToMem =>
    exact .withFlags rfl rfl (Kept.aluToEa hstart (mayWriteEA (k := .memoryAlterable) rfl (by decide) id)
      fun _ _ _ _ hfl => .butX rfl hfl rfl)
  case eor =>
    exact .withFlags rfl rfl (Kept.aluToEa hstart (mayWriteEA (k := .dataAlterable) rfl (by decide) id)
      fun _ _ _ _ hfl => .butX rfl hfl rfl)
  case subxReg | addxReg =>
    exact .withFlags (m := 31) rfl rfl (.of (Kept.aluRegReg (may_head rfl) (fun _ _ _ _ _ => .all rfl)) hstart)
  case subxMem | addxMem =>
    exact .withFlags rfl rfl (Kept.aluMemMem hstart (may_head rfl) (mayWritePredec rfl) fun _ _ _ _ _ => .all rfl)
  case suba | adda => exact .plain rfl (.of (Kept.addressOp (may_append_left rfl) (may_last rfl)) hstart)
  case divu | divs =>
    exact .withFlags rfl rfl (.of (.bind (Kept.fetchEA (may_append_left rfl)) (fun _ =>
      .ite (.bind (Kept.divZeroFlags rfl) fun _ => .raise)
        (.bind .readD fun _ => .ite (Kept.divOverflowFlags rfl) (.bind (Kept.writeD (may_last rfl)) fun _ =>
          Kept.modifyFlags fun _ hfl => .butX rfl hfl rfl)))) hstart)
  case mulu | muls => exact .withFlags rfl rfl (.of (Kept.mulRule (may_append_left rfl) (may_last rfl) rfl) hstart)
  case sbcdReg | abcdReg => exact .withFlags rfl rfl (.of (Kept.bcdRegReg (may_head rfl) rfl) hstart)
  case sbcdMem | abcdMem =>
    exact .withFlags rfl rfl (Kept.bcdMemMem hstart (may_head rfl) (mayWritePredec rfl) rfl)
  case cmp =>
    exact .withFlags rfl rfl (.of (.bind (Kept.fetchEA (may_of_eq rfl)) (fun _ => .bind .readDSized fun _ =>
      Kept.modifyFlags fun _ hfl => .butX rfl hfl rfl)) hstart)
  case cmpa =>
    exact .withFlags rfl rfl (.of (.bind (Kept.fetchEA (may_of_eq rfl)) (fun _ => .bind .readA fun _ =>
      Kept.modifyFlags fun _ hfl => .butX rfl hfl rfl)) hstart)
  case cmpm =>
    exact .withFlags rfl rfl (.of (.bind (Kept.fetchEA fun y hy => List.mem_singleton.1 hy ▸ may_head rfl)
      (fun _ => .bind (Kept.fetchEA fun y hy => List.mem_singleton.1 hy ▸ may_last (xs := [_]) rfl) fun _ =>
        Kept.modifyFlags fun _ hfl => .butX rfl hfl rfl)) hstart)
  case exgDD dx dy =>
    exact .plain (show execExgDD dx dy s = _ from rfl)
      (.of (.bind .readD (fun _ => .bind .readD fun _ => .bind (Kept.writeD (may_head rfl)) fun _ =>
        Kept.writeD (may_last (xs := [_]) rfl))) hstart)
  case exgAA ax ay =>
    exact .plain (show execExgAA ax ay s = _ from rfl)
      (.of (.bind .readA (fun _ => .bind .readA fun _ => .bind (Kept.writeA (may_head rfl)) fun _ =>
        Kept.writeA (may_last (xs := [_]) rfl))) hstart)
  case exgDA dx ay =>
    exact .plain (show execExgDA dx ay s = _ from rfl)
      (.of (.bind .readD (fun _ => .bind .readA fun _ => .bind (Kept.writeD (may_head rfl)) fun _ =>
        Kept.writeA (may_last (xs := [_]) rfl))) hstart)
  case asrReg | aslReg | lsrReg | lslReg | roxrReg | roxlReg =>
    exact .withFlags rfl rfl (.of (Kept.shiftRegRule (may_head rfl) (fun _ _ _ _ => .all rfl)) hstart)
  case rorReg =>
    exact .withFlags rfl rfl (.of (Kept.shiftRegRule (may_head rfl)
      (fun _ _ _ hfl => .butX rfl hfl (aluShift_rotate_x (.inr rfl) _ _ _ _))) hstart)
  case rolReg =>
    exact .withFlags rfl rfl (.of (Kept.shiftRegRule (may_head rfl)
      (fun _ _ _ hfl => .butX rfl hfl (aluShift_rotate_x (.inl rfl) _ _ _ _))) hstart)
  case asrMem | aslMem | lsrMem | lslMem | roxrMem | roxlMem =>
    exact .withFlags rfl rfl (Kept.shiftMemRule hstart (mayWriteEA (k := .memoryAlterable) rfl (by decide) id)
      fun _ _ _ _ => .all rfl)
  case rorMem =>
    exact .withFlags rfl rfl (Kept.shiftMemRule hstart (mayWriteEA (k := .memoryAlterable) rfl (by decide) id)
      fun _ _ _ hfl => .butX rfl hfl (aluShift_rotate_x (.inr rfl) _ _ _ _))
  case rolMem =>
    exact .withFlags rfl rfl (Kept.shiftMemRule hstart (mayWriteEA (k := .memoryAlterable) rfl (by decide) id)
      fun _ _ _ hfl => .butX rfl hfl (aluShift_rotate_x (.inl rfl) _ _ _ _))
  case chk2Cmp2 | cas | rtm | callm | chkL | linkL | extbL | mulL | divL | trapcc | pack | unpk | bitField | tst20
      | cmpi20 =>
    exact .plain rfl (.of Keeps.only68020 hstart)

end Sys2Proof.Machine
end

section
/-! SUPPORT. What stands before the end of the step or before the exception (R130, R135), and the obligations on frames. -/

namespace Sys2Proof.Machine

/-! ## What freeing leaves alone -/

section
variable {s : State} {i : Instr}

theorem State.drawTarget_unwritten (t : State) {y : Target} (hy : ∀ c, y ≠ .control c) :
    (t.drawTarget y).unwritten = t.unwritten := by
  cases y with
  | d n | pc => rfl
  | a n => simp [State.drawTarget, State.unwritten, State.controls]
  | mem fc a n =>
    obtain ⟨m, k, e⟩ := t.drawBytes_only_mem fc a n
    rw [State.drawTarget, e]
    rfl
  | control c => exact absurd rfl (hy c)
  | ccr m =>
    have := (State.left_setCCR (s := t) (w := []) (own := fun _ => true)
      ((t.getCCR &&& ~~~m) ||| (Config.freeCcr t.draws &&& m))).system
    simp only [State.drawTarget, State.unwritten, this]
    rfl

/-- Where a faulting rule leaves free values, what `Done` says but for the flags. -/
structure Freed (s : State) (i : Instr) (t : State) : Prop where
  left : s.Left t (instrWrites s i) (fun r => writesStackReg r i)
  control : writesControl i = false → t.controls = s.controls
  run : t.run = s.run
  opcode : t.opcode = s.opcode
  icount : t.icount = s.icount

theorem Freed.drawTarget {t : State} {y : Target} (h : Freed s i t) (hy : Frees s i y) :
    Freed s i (t.drawTarget y) := by
  have hl := h.left.trans (State.left_drawTarget hy.within)
  by_cases hc : ∃ c, y = .control c
  · obtain ⟨c, rfl⟩ := hc
    refine ⟨hl, fun hn => ?_, ?_, ?_, ?_⟩
    · rw [hy.control c rfl] at hn
      cases hn
    · exact (t.writeControl_run c _).trans h.run
    · exact (t.writeControl_opcode c _).trans h.opcode
    · exact (t.writeControl_icount c _).trans h.icount
  · have hu := t.drawTarget_unwritten fun c e => hc ⟨c, e⟩
    exact ⟨hl, fun hn => (congrArg (·.2.2.1) hu).trans (h.control hn), (congrArg (·.2.2.2.1) hu).trans h.run,
      (congrArg (·.2.2.2.2.1) hu).trans h.opcode, (congrArg (·.2.2.2.2.2) hu).trans h.icount⟩

theorem Freed.fetchLeaves {t : State} {ts : List Target} (h : Freed s i t) (hts : ∀ y ∈ ts, Frees s i y) :
    Freed s i (t.fetchLeaves ts) := by
  induction ts generalizing t with
  | nil => exact h
  | cons y ts ih => exact ih (h.drawTarget (hts y List.mem_cons_self)) fun z hz => hts z (List.mem_cons_of_mem y hz)

theorem Freed.faultLeaves {t : State} {ts : List Target} (h : Freed s i t) (hts : ∀ y ∈ ts, Frees s i y) :
    Freed s i (t.faultLeaves ts) :=
  have hf := h.fetchLeaves hts
  ⟨hf.left.trans ((State.left_setCCR _).withCounts _ _), hf.control, hf.run, hf.opcode, hf.icount⟩

theorem Freed.start (s : State) (i : Instr) (p : Word) (k : Nat) : Freed s i { s with pc := p, draws := k } :=
  ⟨(State.Left.refl s).withCounts p k, fun _ => rfl, rfl, rfl, rfl⟩

theorem excState_of_ne {e : Exc} (hb : e ≠ .busError) (ha : e ≠ .addressError) (ts : List Target) (s u : State) :
    excState e ts s u = u := by
  unfold excState
  split
  · exact absurd rfl hb
  · exact absurd rfl ha
  · rfl

theorem Freed.excState {e : Exc} (he : e = .busError ∨ e = .addressError) {ts : List Target}
    (hts : ∀ y ∈ ts, Frees s i y) (u : State) : Freed s i (excState e ts s u) := by
  have := (Freed.start s i u.pc u.draws).faultLeaves hts
  rcases he with rfl | rfl <;> exact this

/-- What stands before the end of the step, or before an exception that no access raised; or else what the exception of
an access or of a fetch leaves, its flags those that the instruction does not write unless it is `Bus_error` or
`Address_error`. -/
theorem Runs.outcome {t : State} (h : Runs s i) (ht : exec i s = .next t) :
    (∃ u, (t = finish true s.pc u ∨
        ∃ e, e ≠ .busError ∧ e ≠ .addressError ∧ t = deliver e .execute s.pc u.counted) ∧ Done s i u) ∨
    ∃ u e, t = deliver e .execute s.pc u.counted ∧ Freed s i u ∧ (e ≠ .busError → e ≠ .addressError →
      u.sr &&& 0x1F#16 &&& ~~~flagMask i = s.sr &&& 0x1F#16 &&& ~~~flagMask i) := by
  obtain ⟨b, ts, rule, hc, hts, hdone, hb⟩ := h
  rw [hc] at ht
  unfold Ends at hdone
  rcases cycleWith_cases b ts rule s with ⟨u, hr, hn⟩ | ⟨e, u, hr, hn⟩ | ⟨e, u, hr, hn⟩ | ⟨r, u, hr, hn⟩
  all_goals
    rw [hn] at ht
    rw [hr] at hdone
    cases ht
  · have hb' : b = true := hb.resolve_right fun h => h u hr
    exact .inl ⟨u, .inl (by rw [hb']), hdone⟩
  · have hts := hts ⟨_, _, hr⟩
    by_cases he : e = .busError ∨ e = .addressError
    · exact .inr ⟨_, e, rfl, .excState he hts u, fun h1 h2 => absurd he (not_or.2 ⟨h1, h2⟩)⟩
    · obtain ⟨h1, h2⟩ := not_or.1 he
      exact .inl ⟨u, .inr ⟨e, h1, h2, by rw [excState_of_ne h1 h2]⟩, hdone⟩
  · have hts := hts ⟨_, _, hr⟩
    exact .inr ⟨_, e, rfl, (Freed.start s i u.pc u.draws).fetchLeaves hts, fun _ _ =>
      State.fetchLeaves_flags { s with pc := u.pc, draws := u.draws } fun y hy => (hts y hy).flags⟩

end

/-- Settles O53: the instruction is one cycle, whose rule writes within the write set, and what a fault then frees is
within it too. -/
theorem registerAndMemoryFrame : Obligations.RegisterAndMemoryFrame := by
  unfold Obligations.RegisterAndMemoryFrame
  intro i s t hwf _ hh ht
  rcases (exec_runs i s hh).outcome ht with ⟨u, hu, hdone⟩ | ⟨u, e, hu, hfreed, -⟩
  · exact ⟨u, hu.imp_right fun ⟨e, _, _, h⟩ => ⟨e, h⟩, hdone.frame hwf⟩
  · exact ⟨u, .inr ⟨e, hu⟩, hfreed.left.frame⟩

/-- Settles O54: only the system instructions write the status word, a control register or the run condition, and the
rule of every other writes no flag outside its mask. -/
theorem statusFrame : Obligations.StatusFrame := by
  unfold Obligations.StatusFrame
  intro i s t hh ht
  have controls : ∀ {u : State}, u.controls = s.controls →
      u.vbr = s.vbr ∧ u.sfc = s.sfc ∧ u.dfc = s.dfc ∧ u.cacr = s.cacr ∧ u.caar = s.caar := fun h => by
    simpa only [State.controls, Prod.mk.injEq] using h
  rcases (exec_runs i s hh).outcome ht with ⟨u, hu, hdone⟩ | ⟨u, e, hu, hfreed, hflags⟩
  · exact ⟨u, .inl ⟨hu, hdone.flags.sr⟩, hdone.system, fun hc => controls (hdone.control hc), hdone.run, hdone.opcode,
      hdone.cfg, hdone.icount⟩
  · refine ⟨u, ?_, fun _ => hfreed.left.system, fun hc => controls (hfreed.control hc), fun _ => hfreed.run,
      hfreed.opcode, hfreed.left.cfg, hfreed.icount⟩
    by_cases he : e = .busError ∨ e = .addressError
    · exact .inr ⟨e, he, hu⟩
    · obtain ⟨h1, h2⟩ := not_or.1 he
      exact .inl ⟨.inr ⟨e, h1, h2, hu⟩, hflags h1 h2⟩

end Sys2Proof.Machine
end

section
/-! SUPPORT. The cases of a step (R130), the state that it ends in, and the obligations on steps and model rows. -/

namespace Sys2Proof.Machine

/-! ## The cases of a step -/

section
variable {s : State}

theorem step_of_not_running (h : s.run ≠ .running) : step s = .next s := if_neg h

theorem step_of_running (h : s.run = .running) : step s = runStep s := if_pos h

theorem step_of_traced (h : s.run = .running) (ht : s.traced = true) : step s = .refused .trace := by
  rw [step_of_running h, runStep, if_pos ht]

theorem step_of_fetched {i : Instr} {rest : List Half} (h : s.run = .running) (ht : s.traced = false)
    (hf : s.fetched = .ok (i, rest)) : step s = exec i s := by
  simp only [step_of_running h, runStep, ht, Bool.false_eq_true, if_false, hf]

/-- A word with no row is illegal (R117). -/
theorem step_of_no_row {x : DecodeError} (h : s.run = .running) (ht : s.traced = false) (hf : s.fetched = .error x) :
    step s = .next (deliver .illegalInstruction .execute s.pc s.started.counted) := by
  simp only [step_of_running h, runStep, ht, Bool.false_eq_true, if_false, hf]
  exact cycle_exc (raise_run _ _)

end

theorem State.counted_afterFetch (s : State) (a : Word) : s.counted.afterFetch a = (s.afterFetch a).counted := by
  rw [State.afterFetch_eq, State.afterFetch_eq, apply_ite State.counted]
  rfl

/-- Settles O47, by the cases of a step and of its end. -/
theorem stepRunsDecoded : Obligations.StepRunsDecoded := by
  unfold Obligations.StepRunsDecoded
  intro s
  refine ⟨step_of_not_running, fun h ht => step_of_traced h (by rwa [State.traced, Bool.or_eq_true]),
    fun h h15 h14 => ?_,
    fun ia => ⟨fun h => ?_, fun w h hw => ?_, fun x h hx => ?_⟩⟩
  · have ht : s.traced = false := by rw [State.traced, h15, h14, Bool.or_self]
    exact ⟨fun i rest hd => step_of_fetched h ht hd, fun x hd => step_of_no_row h ht hd⟩
  · simp [finish, h]
  · rw [finish_ok h hw, State.counted_afterFetch, State.counted, State.afterFetch_icount]
  · rw [finish_error h hx, State.counted_afterFetch]

/-- Settles O59, by evaluating the decoder on each word. -/
theorem decodedWords : Obligations.DecodedWords := by
  unfold Obligations.DecodedWords
  decide

/-! ## The rows that only some models have -/

section
variable {s : State}

/-- A pattern of the MC68020 (R120, R117). -/
theorem cycle_only68020 (name : String) :
    cycle [] (only68020 name) s = if s.cfg.model = .mc68020 then .refused (.mc68020Only name)
      else .next (deliver .illegalInstruction .execute s.pc s.started.counted) := by
  split
  next h => exact cycle_refused (t := s.started) (if_pos (Model.is20_iff.2 h))
  next h => exact cycle_exc (t := s.started) (if_neg fun h20 => h (Model.is20_iff.1 h20))

/-- The rows of the later models begin with a test of the model, which mc68000 fails (R117). -/
theorem from68010_error (h : s.cfg.model = .mc68000) :
    from68010 s.started = .error (.exc .illegalInstruction) s.started := by
  simp [from68010, State.started, h, Model.atLeast10]

/-- Before mc68020 the displacement byte 0xFF is not refused (R382). -/
theorem byte_branch (h : s.cfg.model ≠ .mc68020) : refuse32 (.short 0xFF) s.started = .ok () s.started :=
  refuse32_ok (by simp [State.started, Bool.eq_false_iff.2 fun h20 => h (Model.is20_iff.1 h20)])

/-- A branch by -1 from the word after the opcode. -/
theorem started_add_sext8_FF : s.started.pc + sext8 0xFF = s.pc + 1 := by
  simp only [State.started, sext8, BitVec.add_assoc]
  rfl

theorem exec_mc68020Row {i : Instr} {name : String} (h : mc68020Row i = some name) :
    exec i s = if s.cfg.model = .mc68020 then .refused (.mc68020Only name)
      else .next (deliver .illegalInstruction .execute s.pc s.started.counted) := by
  cases i <;> cases h <;> exact cycle_only68020 _

/-- The rows from mc68010 on (R117). -/
theorem exec_of_from68010 {i : Instr} (h : s.cfg.model = .mc68000) (h00 : i.onModel .mc68000 = false)
    (h10 : i.onModel .mc68010 = true) :
    exec i s = .next (deliver .illegalInstruction .execute s.pc s.started.counted) := by
  cases i
  case moves | moveFromCcr | rtd => exact cycle_exc (bind_error (from68010_error h))
  case movecFrom | movecTo => exact cycle_exc (bind_error (bind_error (from68010_error h)))
  all_goals simp [Instr.onModel, Model.is20] at h00 h10

/-- The 32-bit branches of mc68020 (R120). -/
theorem exec_bccL_refused (c : Cond) (h : s.cfg.model = .mc68020) :
    exec (.bccL c) s = .refused (.mc68020Only "Bcc.L_BRA.L_BSR.L") := by
  have hr : refuse32 (.short 0xFF) s.started = .error (.refuse (.mc68020Only "Bcc.L_BRA.L_BSR.L")) s.started := by
    simp [refuse32, State.started, h, Model.is20, BranchDisp.isFF]
  exact cycle_refused (bind_error hr)

/-- Before mc68020 the 32-bit branches are branches by -1 (R382). -/
theorem exec_bccL_byte {c : Cond} (h : s.cfg.model ≠ .mc68020) (hc : c ≠ .f) :
    exec (.bccL c) s = .next (finish true s.pc
      (if condTest c s.flags then { s.started with pc := s.pc + 1 } else s.started)) := by
  refine cycle_ok ?_
  rw [bind_ok (byte_branch h), if_neg hc]
  simp only [branchRule, readPC_bind, readDisp, pure_bind_run, readCond_bind, started_add_sext8_FF]
  rw [State.flags_started]
  by_cases hcond : condTest c s.flags = true
  · rw [if_pos hcond, if_pos hcond, writePC_run]
  · rw [if_neg hcond, if_neg hcond, pure_run]

theorem exec_bccL_subroutine (h : s.cfg.model ≠ .mc68020) (hp : s.started.canPush = true) :
    exec (.bccL .f) s = .next (finish true s.pc { s.started.pushed (s.pc + 2) with pc := s.pc + 1 }) := by
  refine cycle_ok ?_
  rw [bind_ok (byte_branch h), if_pos rfl]
  rw [bsrRule, readPC_bind, readDisp, pure_bind_run, readPC_bind, bind_ok (pushLong_ok hp), started_add_sext8_FF,
    writePC_run, State.started_pc]

end

/-- Settles O41: the rows of the MC68020 have one rule, the 32-bit branches are branches by -1 before it, and the rows
of the later models begin with the test of the model. -/
theorem modelRows : Obligations.ModelRows := by
  unfold Obligations.ModelRows
  intro s i name c
  exact ⟨exec_mc68020Row, exec_bccL_refused c, exec_bccL_byte, exec_bccL_subroutine, exec_of_from68010⟩

/-! ## What a step that leaves the core running ends with -/

/-- The last call that made this state was the fetch of the word at its `pc` into the opcode register (R105). -/
def State.EndsInFetch (t : State) : Prop :=
  ∃ u : State, u.pc = t.pc ∧ u.fetchWordAt u.pc = .ok t.opcode ∧ t = { u.afterFetch u.pc with opcode := t.opcode }

theorem State.endsInFetch_of_fetch {u : State} {w : Half} (h : u.fetchWordAt u.pc = .ok w) :
    State.EndsInFetch { u.afterFetch u.pc with opcode := w } :=
  ⟨u, (u.afterFetch_pc u.pc).symm, h, rfl⟩

/-- Steps (e) and (f) of the delivery end with the prefetch at the handler, or halt (R458). -/
theorem State.enterHandler_endsInFetch {s : State} {vec : Nat} (h : (s.enterHandler vec).run = .running) :
    (s.enterHandler vec).EndsInFetch := by
  unfold State.enterHandler at h ⊢
  dsimp only at h ⊢
  split at h
  · cases h
  next ho =>
    rw [if_neg ho]
    split at h
    next => cases h
    next v hv =>
      split at h
      next w hw => exact State.endsInFetch_of_fetch (u := { s.called 5 _ 4 with pc := v }) hw
      next => cases h

theorem deliver_endsInFetch {s : State} {e : Exc} {o : Origin} {ia : Word} (h : (deliver e o ia s).run = .running) :
    (deliver e o ia s).EndsInFetch := by
  unfold deliver at h ⊢
  dsimp only at h ⊢
  split at h
  · cases h
  next ho =>
    rw [if_neg ho]
    split at h
    next => cases h
    next => exact State.enterHandler_endsInFetch h

theorem finish_endsInFetch {s : State} {ia : Word} (h : (finish true ia s).run = .running) :
    (finish true ia s).EndsInFetch := by
  by_cases hr : s.run = .running
  · cases hw : s.fetchWordAt s.pc with
    | ok w =>
      rw [finish_ok hr hw]
      exact State.endsInFetch_of_fetch (u := s.counted) hw
    | error e =>
      rw [finish_error hr hw] at h ⊢
      exact deliver_endsInFetch h
  · simp only [finish, hr, and_false, if_false] at h
    exact absurd h hr

theorem State.EndsInFetch.even {t : State} (h : t.EndsInFetch) : odd t.pc = false := by
  obtain ⟨u, hpc, hw, -⟩ := h
  rw [← hpc, ← Bool.not_eq_true]
  intro ho
  rw [State.fetchWordAt_odd ho] at hw
  cases hw

/-- A call that the host does not answer on its own changes nothing, so the fetch gives the same again. -/
theorem State.EndsInFetch.refetch {t : State} (h : t.EndsInFetch)
    (hown : t.cfg.mem.answer .read t.progFC t.pc 2 ≠ .own) : t.Prefetched := by
  obtain ⟨u, hpc, hw, ht⟩ := h
  have hfc : t.progFC = u.progFC := by
    have hsr : t.sr = u.sr := by rw [ht, State.afterFetch_sr]
    rw [State.progFC, State.supervisor, hsr]
    rfl
  have hcfg : t.cfg = u.cfg := by rw [ht, State.afterFetch_cfg]
  rw [hfc, hcfg, ← hpc] at hown
  rw [State.afterFetch_eq, if_neg fun h => hown h.2] at ht
  rw [ht]
  exact hw

/-- Every step of the core's own ends with the end of an instruction or with an exception. -/
theorem step_ends {s t : State} (hown : s.ownStep) (hr : s.run = .running) (h : step s = .next t) :
    (∃ u, t = finish true s.pc u) ∨ ∃ e u, t = deliver e .execute s.pc u := by
  cases ht : s.traced with
  | true => rw [step_of_traced hr ht] at h; cases h
  | false =>
    cases hf : s.fetched with
    | error x => rw [step_of_no_row hr ht hf] at h; cases h; exact .inr ⟨_, _, rfl⟩
    | ok r =>
      rw [step_of_fetched hr ht hf] at h
      rcases (exec_runs r.1 s (hown _ _ hf)).outcome h with ⟨u, hu | ⟨e, -, -, hu⟩, -⟩ | ⟨u, e, hu, -⟩
      · exact .inl ⟨u, hu⟩
      · exact .inr ⟨e, _, hu⟩
      · exact .inr ⟨e, _, hu⟩

/-- Settles O50: the end of an instruction and the delivery of an exception both end with the prefetch, or do not leave
the core running. -/
theorem prefetchCoherent : Obligations.PrefetchCoherent := by
  unfold Obligations.PrefetchCoherent
  intro s t hown hr h ht
  have hp : t.EndsInFetch := by
    rcases step_ends hown hr h with ⟨u, rfl⟩ | ⟨e, u, rfl⟩
    · exact finish_endsInFetch ht
    · exact deliver_endsInFetch ht
  exact ⟨hp.even, hp, hp.refetch⟩

end Sys2Proof.Machine
end

section
/-! SUPPORT. The words of the opcode map as numbers: what a mask, a field and a guard say of a word (R103, R113,
R115). -/

namespace Sys2Proof

/-! ## Fields -/

/-- A field of a word, bit by bit. -/
theorem testBit_field (op : Half) (lo w i : Nat) :
    (field op lo w).testBit i = (decide (i < w) && op.getLsbD (lo + i)) := by
  rw [field, Nat.testBit_mod_two_pow, Nat.testBit_div_two_pow, BitVec.testBit_toNat, Nat.add_comm]

/-- Two words agree under a mask when they agree in the fields that the mask is made of. -/
theorem and_mask_eq_iff {op p mask : Half} (fields : List (Nat × Nat)) (hp : p &&& mask = p)
    (hmask : ∀ i : Fin 16, mask.getLsbD i = fields.any fun f => decide (f.1 ≤ i.val) && decide (i.val < f.1 + f.2)) :
    op &&& mask = p ↔ ∀ f ∈ fields, field op f.1 f.2 = field p f.1 f.2 := by
  constructor
  · rintro h ⟨lo, w⟩ hf
    refine Nat.eq_of_testBit_eq fun i => ?_
    rw [testBit_field, testBit_field]
    by_cases hi : i < w
    · by_cases h16 : lo + i < 16
      · have hm : mask.getLsbD (lo + i) = true := by
          rw [hmask ⟨lo + i, h16⟩, List.any_eq_true]
          exact ⟨_, hf, by simp [hi]⟩
        rw [← h, BitVec.getLsbD_and, hm, Bool.and_true]
      · rw [BitVec.getLsbD_of_ge _ _ (by omega), BitVec.getLsbD_of_ge _ _ (by omega)]
    · simp [hi]
  · intro h
    refine BitVec.eq_of_getLsbD_eq fun i h16 => ?_
    have hpi : p.getLsbD i = (p.getLsbD i && mask.getLsbD i) := by rw [← BitVec.getLsbD_and, hp]
    rw [BitVec.getLsbD_and, hpi]
    cases hm : mask.getLsbD i with
    | false => simp
    | true =>
      rw [hmask ⟨i, h16⟩, List.any_eq_true] at hm
      obtain ⟨⟨lo, w⟩, hf, hin⟩ := hm
      simp only [Bool.and_eq_true, decide_eq_true_eq] at hin
      have := congrArg (·.testBit (i - lo)) (h _ hf)
      simp only [testBit_field, show i - lo < w by omega, decide_true, Bool.true_and,
        show lo + (i - lo) = i by omega] at this
      rw [this]

/-! ## The masks of the opcode map -/

section
variable {op p : Half}

@[simp] theorem maskFFFF (hp : p &&& 0xFFFF#16 = p) :
    op &&& 0xFFFF#16 = p ↔ field op 0 16 = field p 0 16 := by
  simpa using and_mask_eq_iff [(0, 16)] hp (by decide)

@[simp] theorem maskFF00 (hp : p &&& 0xFF00#16 = p) :
    op &&& 0xFF00#16 = p ↔ field op 8 8 = field p 8 8 := by
  simpa using and_mask_eq_iff [(8, 8)] hp (by decide)

@[simp] theorem maskFFC0 (hp : p &&& 0xFFC0#16 = p) :
    op &&& 0xFFC0#16 = p ↔ field op 6 10 = field p 6 10 := by
  simpa using and_mask_eq_iff [(6, 10)] hp (by decide)

@[simp] theorem maskF1C0 (hp : p &&& 0xF1C0#16 = p) :
    op &&& 0xF1C0#16 = p ↔ field op 12 4 = field p 12 4 ∧ field op 6 3 = field p 6 3 := by
  simpa using and_mask_eq_iff [(12, 4), (6, 3)] hp (by decide)

@[simp] theorem maskF1F8 (hp : p &&& 0xF1F8#16 = p) :
    op &&& 0xF1F8#16 = p ↔ field op 12 4 = field p 12 4 ∧ field op 3 6 = field p 3 6 := by
  simpa using and_mask_eq_iff [(12, 4), (3, 6)] hp (by decide)

@[simp] theorem maskF000 (hp : p &&& 0xF000#16 = p) :
    op &&& 0xF000#16 = p ↔ field op 12 4 = field p 12 4 := by
  simpa using and_mask_eq_iff [(12, 4)] hp (by decide)

@[simp] theorem maskFFF8 (hp : p &&& 0xFFF8#16 = p) :
    op &&& 0xFFF8#16 = p ↔ field op 3 13 = field p 3 13 := by
  simpa using and_mask_eq_iff [(3, 13)] hp (by decide)

@[simp] theorem maskFF80 (hp : p &&& 0xFF80#16 = p) :
    op &&& 0xFF80#16 = p ↔ field op 7 9 = field p 7 9 := by
  simpa using and_mask_eq_iff [(7, 9)] hp (by decide)

@[simp] theorem maskFFB8 (hp : p &&& 0xFFB8#16 = p) :
    op &&& 0xFFB8#16 = p ↔ field op 7 9 = field p 7 9 ∧ field op 3 3 = field p 3 3 := by
  simpa using and_mask_eq_iff [(7, 9), (3, 3)] hp (by decide)

@[simp] theorem maskFFF0 (hp : p &&& 0xFFF0#16 = p) :
    op &&& 0xFFF0#16 = p ↔ field op 4 12 = field p 4 12 := by
  simpa using and_mask_eq_iff [(4, 12)] hp (by decide)

@[simp] theorem maskF9C0 (hp : p &&& 0xF9C0#16 = p) :
    op &&& 0xF9C0#16 = p ↔ field op 11 5 = field p 11 5 ∧ field op 6 3 = field p 6 3 := by
  simpa using and_mask_eq_iff [(11, 5), (6, 3)] hp (by decide)

@[simp] theorem maskF100 (hp : p &&& 0xF100#16 = p) :
    op &&& 0xF100#16 = p ↔ field op 12 4 = field p 12 4 ∧ field op 8 1 = field p 8 1 := by
  simpa using and_mask_eq_iff [(12, 4), (8, 1)] hp (by decide)

@[simp] theorem maskF0F8 (hp : p &&& 0xF0F8#16 = p) :
    op &&& 0xF0F8#16 = p ↔ field op 12 4 = field p 12 4 ∧ field op 3 5 = field p 3 5 := by
  simpa using and_mask_eq_iff [(12, 4), (3, 5)] hp (by decide)

@[simp] theorem maskF0C0 (hp : p &&& 0xF0C0#16 = p) :
    op &&& 0xF0C0#16 = p ↔ field op 12 4 = field p 12 4 ∧ field op 6 2 = field p 6 2 := by
  simpa using and_mask_eq_iff [(12, 4), (6, 2)] hp (by decide)

@[simp] theorem maskF138 (hp : p &&& 0xF138#16 = p) :
    op &&& 0xF138#16 = p ↔ field op 12 4 = field p 12 4 ∧ field op 8 1 = field p 8 1 ∧ field op 3 3 = field p 3 3 := by
  simpa using and_mask_eq_iff [(12, 4), (8, 1), (3, 3)] hp (by decide)

@[simp] theorem maskF118 (hp : p &&& 0xF118#16 = p) :
    op &&& 0xF118#16 = p ↔ field op 12 4 = field p 12 4 ∧ field op 8 1 = field p 8 1 ∧ field op 3 2 = field p 3 2 := by
  simpa using and_mask_eq_iff [(12, 4), (8, 1), (3, 2)] hp (by decide)

@[simp] theorem maskF8C0 (hp : p &&& 0xF8C0#16 = p) :
    op &&& 0xF8C0#16 = p ↔ field op 11 5 = field p 11 5 ∧ field op 6 2 = field p 6 2 := by
  simpa using and_mask_eq_iff [(11, 5), (6, 2)] hp (by decide)

@[simp] theorem maskF1F0 (hp : p &&& 0xF1F0#16 = p) :
    op &&& 0xF1F0#16 = p ↔ field op 12 4 = field p 12 4 ∧ field op 4 5 = field p 4 5 := by
  simpa using and_mask_eq_iff [(12, 4), (4, 5)] hp (by decide)

end

/-! ## Guards -/

section
variable {m : Model} {op : Half}

@[simp] theorem Row.selects_iff {r : Row} :
    r.selects m op = true ↔ op &&& r.mask = r.pattern ∧ r.guard m op = true := by
  simp [Row.selects]

/-- The number of a 3-bit field. -/
theorem regAt_val (lo : Nat) : (regAt op lo).val = field op lo 3 := rfl

@[simp] theorem eaFieldOf_eq_iff {a b : RegNo} :
    eaFieldOf op = ⟨a, b⟩ ↔ field op 3 3 = a.val ∧ field op 0 3 = b.val := by
  rw [eaFieldOf, EaField.mk.injEq, Fin.ext_iff, Fin.ext_iff, regAt_val, regAt_val]

@[simp] theorem gSize_iff : gSize m op = true ↔ field op 6 2 ≠ 3 := by rw [gSize, decide_eq_true_eq]

@[simp] theorem gEa_iff {k : EaClass} : gEa k m op = true ↔ k.admits (field op 3 3) (field op 0 3) = true := Iff.rfl

@[simp] theorem dst_iff {k : EaClass} :
    k.admitsField (dstFieldOf op) = true ↔ k.admits (field op 6 3) (field op 9 3) = true := Iff.rfl

@[simp] theorem gSizeEa_iff {k : EaClass} :
    gSizeEa k m op = true ↔ field op 6 2 ≠ 3 ∧ k.admits (field op 3 3) (field op 0 3) = true := by
  rw [gSizeEa, Bool.and_eq_true, gSize_iff, gEa_iff]

@[simp] theorem gSizeEaNoAnB_iff {k : EaClass} :
    gSizeEaNoAnB k m op = true ↔ (field op 6 2 ≠ 3 ∧ k.admits (field op 3 3) (field op 0 3) = true) ∧
      ¬ (field op 6 2 = 0 ∧ field op 3 3 = 1) := by
  rw [gSizeEaNoAnB, Bool.and_eq_true, gSizeEa_iff, decide_eq_true_eq]

@[simp] theorem g10_iff {g : Guard} : g10 g m op = true ↔ m.atLeast10 = true ∧ g m op = true := by
  rw [g10, Bool.and_eq_true]

@[simp] theorem g20_iff {g : Half → Bool} : g20 g m op = true ↔ m.is20 = true ∧ g op = true := by
  rw [g20, Bool.and_eq_true]

@[simp] theorem gBranch_iff {g : Half → Bool} :
    gBranch g m op = true ↔ g op = true ∧ (m.is20 = true → field op 0 8 ≠ 255) := by
  rw [gBranch, Bool.and_eq_true, Bool.not_eq_true', ← Bool.not_eq_true, Bool.and_eq_true, decide_eq_true_eq,
    not_and]

end

/-! ## Rows that no word selects together (R116) -/

/-- No word selects both rows (R116). -/
def Row.Apart (r r' : Row) : Prop := ∀ m op, r.selects m op = true → r'.selects m op = true → False


/-- The masks do not keep two rows apart: some word matches both patterns. -/
def Row.mayClash (r r' : Row) : Bool := r.pattern &&& r'.mask == r'.pattern &&& r.mask

theorem Row.mayClash_of_selects {r r' : Row} {m : Model} {op : Half} (h : r.selects m op = true)
    (h' : r'.selects m op = true) : r.mayClash r' = true := by
  simp only [Row.selects, Bool.and_eq_true, decide_eq_true_eq] at h h'
  rw [Row.mayClash, ← h.1, ← h'.1, beq_iff_eq]
  ac_rfl

/-- The pairs of rows that the masks do not keep apart. -/
def clashes : List Row → List (Row × Row)
  | [] => []
  | r :: rs => (rs.filter r.mayClash).map (r, ·) ++ clashes rs

theorem pairwise_apart {rs : List Row} (h : ∀ p ∈ clashes rs, p.1.Apart p.2) : rs.Pairwise Row.Apart := by
  induction rs with
  | nil => exact .nil
  | cons r rs ih =>
    simp only [clashes, List.mem_append, List.mem_map, List.mem_filter] at h
    refine .cons (fun r' hr' m op hs hs' => ?_) (ih fun p hp => h p (.inr hp))
    exact h (r, r') (.inl ⟨r', ⟨hr', Row.mayClash_of_selects hs hs'⟩, rfl⟩) m op hs hs'

@[simp] theorem gAll_eq (m : Model) (op : Half) : gAll m op = true := rfl

/-! In each line the guards keep apart the rows that the masks do not: the size field is not 11, or the class of the
effective address does not have the mode of the other row. -/

theorem line0_apart : (rowsOfLine 0).Pairwise Row.Apart := by
  refine pairwise_apart ?_
  simp [rowsOfLine, rows0, rows0Refused, clashes, List.filter, Row.mayClash]
  and_intros
  all_goals
    intro m op h h'
    simp [EaClass.admits] at h h'
    simp [field] at h h'
    omega

theorem line4_apart : (rowsOfLine 4).Pairwise Row.Apart := by
  refine pairwise_apart ?_
  simp [rowsOfLine, rows4a, rows4b, rows4Refused, clashes, List.filter, Row.mayClash]
  and_intros
  all_goals
    intro m op h h'
    simp [EaClass.admits] at h h'
    simp [field] at h h'
    omega

theorem lineE_apart : (rowsOfLine 14).Pairwise Row.Apart := by
  refine pairwise_apart ?_
  simp [rowsOfLine, rowsE, clashes, List.filter, Row.mayClash]
  and_intros
  all_goals
    intro m op h h'
    simp [EaClass.admits] at h h'
    simp [field] at h h'
    omega

/-- The branches are kept apart by their condition, and on mc68020 from the 32-bit forms by the byte 0xFF. -/
theorem line6_apart : (rowsOfLine 6).Pairwise Row.Apart := by
  refine pairwise_apart ?_
  simp [rowsOfLine, rows6, clashes, List.filter, Row.mayClash]
  refine ⟨?_, ?_, ?_, ?_, ?_⟩
  all_goals
    intro m op h h'
    simp at h h'
  case refine_2 | refine_4 => exact h.2 h'.2.1 h'.2.2
  case refine_5 => exact h.2.2 h'.2.1 h'.2.2
  all_goals
    simp [field] at h h'
    omega

/-- No word selects two rows (R116). -/
theorem rowsOfLine_apart (l : Nat) : (rowsOfLine l).Pairwise Row.Apart := by
  by_cases hl : l = 0 ∨ l = 4 ∨ l = 6 ∨ l = 14
  · rcases hl with rfl | rfl | rfl | rfl
    exacts [line0_apart, line4_apart, line6_apart, lineE_apart]
  refine pairwise_apart ?_
  unfold rowsOfLine
  split
  case h_1 | h_5 | h_7 | h_15 => omega
  all_goals
    simp [rows1, rows2, rows3, rows5, rows7, rows8, rows9, rowsA, rowsB, rowsC, rowsD, rowsF, clashes, List.filter,
      Row.mayClash]
  all_goals
    and_intros
    all_goals
      intro m op h h'
      simp [EaClass.admits] at h h'
      simp [field] at h h'
      omega

end Sys2Proof
end

section
/-! SUPPORT. Reading back the extension words that the encoder writes, and what the readers take (R101, R104, R107 to
R109). -/

namespace Sys2Proof

/-! ## The row of a word -/

theorem find?_of_apart {rs : List Row} {r : Row} {m : Model} {op : Half} (h : rs.Pairwise Row.Apart) (hr : r ∈ rs)
    (hs : r.selects m op = true) : rs.find? (·.selects m op) = some r := by
  induction h with
  | nil => cases hr
  | @cons r' rs hr' _ ih =>
    rcases List.mem_cons.1 hr with rfl | hr
    · exact List.find?_cons_of_pos hs
    · rw [List.find?_cons_of_neg fun hs' => hr' r hr m op hs' hs, ih hr]

/-- The row of a word is the one row of its line that the word selects (R103, R116). -/
theorem rowOf_eq_some_iff {m : Model} {op : Half} {r : Row} :
    rowOf m op = some r ↔ r ∈ rowsOfLine (field op 12 4) ∧ r.selects m op = true :=
  ⟨fun h => ⟨List.mem_of_find?_eq_some h, List.find?_some h⟩, fun h => find?_of_apart (rowsOfLine_apart _) h.1 h.2⟩

theorem decode_of_row {m : Model} {op : Half} {ws : List Half} {r : Row} {x : Instr × List Half}
    (hrow : rowOf m op = some r) (hread : r.read op ws = some x) : decode m (op :: ws) = .ok x := by
  simp only [decode, hrow, hread]

theorem decode_eq_ok {m : Model} {ws : List Half} {x : Instr × List Half} (h : decode m ws = .ok x) :
    ∃ op ws' r, ws = op :: ws' ∧ rowOf m op = some r ∧ r.read op ws' = some x := by
  cases ws with
  | nil => cases h
  | cons op ws =>
    simp only [decode] at h
    split at h
    next => cases h
    next r hr =>
      split at h
      next => cases h
      next y hy => cases h; exact ⟨op, ws, r, rfl, hr, hy⟩

/-! ## Words and their parts -/

theorem wordOf_toNat {n : Nat} (h : n < 65536) : (wordOf n).toNat = n := by
  rw [wordOf, BitVec.toNat_ofNat]
  exact Nat.mod_eq_of_lt h

theorem wordOf_eq {n : Nat} {op : Half} (h : n = op.toNat) : wordOf n = op := by
  rw [wordOf, h, BitVec.ofNat_toNat, BitVec.setWidth_eq]

theorem joinWords_hi_lo (v : Word) : joinWords (hiWord v) (loWord v) = v := by
  refine BitVec.eq_of_toNat_eq ?_
  simp only [joinWords, hiWord, loWord, BitVec.toNat_ofNat]
  omega

theorem loByte_byteWord (b : Byte) : loByte (byteWord b) = b := by
  refine BitVec.eq_of_toNat_eq ?_
  simp only [loByte, byteWord, BitVec.toNat_ofNat, BitVec.toNat_setWidth]
  omega

/-- A word that holds a value of the size. -/
theorem setWidth_loWord {v : Word} (h : v.toNat < 65536) : (loWord v).setWidth 32 = v := by
  refine BitVec.eq_of_toNat_eq ?_
  simp only [loWord, BitVec.toNat_ofNat, BitVec.toNat_setWidth]
  omega

theorem setWidth_loByte_loWord {v : Word} (h : v.toNat < 256) : (loByte (loWord v)).setWidth 32 = v := by
  refine BitVec.eq_of_toNat_eq ?_
  simp only [loByte, loWord, BitVec.toNat_ofNat, BitVec.toNat_setWidth]
  omega

theorem regAt_eq {op : Half} {lo : Nat} {r : RegNo} (h : field op lo 3 = r.val) : regAt op lo = r := Fin.ext h

theorem bitAt_eq {op : Half} {i : Nat} {b : Bool} (h : field op i 1 = b.toNat) : bitAt op i = b := by
  have : bitAt op i = decide (field op i 1 = 1) := rfl
  rw [this, h]
  cases b <;> rfl

/-- The brief extension word holds every field of R108. -/
theorem briefOf_word (x : Brief) : briefOf x.word = x := by
  have hA := x.isA.toNat_lt
  have hL := x.long.toNat_lt
  have hF := x.full.toNat_lt
  have hn : x.word.toNat = x.isA.toNat * 32768 + x.reg.val * 4096 + x.long.toNat * 2048 + x.scale.val * 512 +
      x.full.toNat * 256 + x.disp.toNat := wordOf_toNat (by omega)
  have hscale : (Fin.ofNat 4 (x.word.toNat / 512)) = x.scale := Fin.ext (by simp only [Fin.val_ofNat]; omega)
  have hdisp : loByte x.word = x.disp := BitVec.eq_of_toNat_eq (by simp only [loByte, BitVec.toNat_ofNat]; omega)
  rw [briefOf, bitAt_eq (b := x.isA) (by simp only [field]; omega), regAt_eq (r := x.reg) (by simp only [field]; omega),
    bitAt_eq (b := x.long) (by simp only [field]; omega), bitAt_eq (b := x.full) (by simp only [field]; omega), hscale,
    hdisp]

/-! ## What the encoder writes is read back -/

theorem readWord_cons (w : Half) (ws : List Half) : readWord (w :: ws) = some (w, ws) := rfl

theorem readImm_immWords {sz : Size} {v : Word} (h : sz.fits v = true) (rest : List Half) :
    readImm sz (immWords sz v ++ rest) = some (v, rest) := by
  have hv : v.toNat < 2 ^ sz.bits := of_decide_eq_true h
  cases sz with
  | b => exact congrArg (fun w => some (w, rest)) (setWidth_loByte_loWord hv)
  | w => exact congrArg (fun w => some (w, rest)) (setWidth_loWord hv)
  | l => exact congrArg (fun w => some (w, rest)) (joinWords_hi_lo v)

theorem readEa_words {ea : Ea} {sz : Size} (h : ea.immFits sz = true) (rest : List Half) :
    readEa ea.field sz (ea.words sz ++ rest) = some (ea, rest) := by
  cases ea with
  | index n x => exact congrArg (fun x => some (Ea.index n x, rest)) (briefOf_word x)
  | pcIndex x => exact congrArg (fun x => some (Ea.pcIndex x, rest)) (briefOf_word x)
  | absL a => exact congrArg (fun a => some (Ea.absL a, rest)) (joinWords_hi_lo a)
  | imm v => exact congrArg (Option.map fun p => (Ea.imm p.1, p.2)) (readImm_immWords h rest)
  | _ => rfl

/-! ## What a reader answers, and how many words it takes -/

/-- A reader has taken `n` words. -/
def Took (n : Nat) (ws rest : List Half) : Prop := ∃ used, ws = used ++ rest ∧ used.length = n

theorem Took.zero (ws : List Half) : Took 0 ws ws := ⟨[], rfl, rfl⟩

theorem Took.one (w : Half) (ws : List Half) : Took 1 (w :: ws) ws := ⟨[w], rfl, rfl⟩

theorem Took.trans {k n : Nat} {ws ws' rest : List Half} (h : Took k ws ws') (h' : Took n ws' rest) :
    Took (k + n) ws rest := by
  obtain ⟨u, rfl, rfl⟩ := h
  obtain ⟨u', rfl, rfl⟩ := h'
  exact ⟨u ++ u', (List.append_assoc ..).symm, List.length_append⟩

theorem Took.drop {n : Nat} {ws rest : List Half} (h : Took n ws rest) : ws.drop n = rest ∧ n ≤ ws.length := by
  obtain ⟨u, rfl, rfl⟩ := h
  exact ⟨List.drop_left, by simp⟩

theorem readWord_eq_some {ws rest : List Half} {w : Half} (h : readWord ws = some (w, rest)) : Took 1 ws rest := by
  cases ws with
  | nil => cases h
  | cons v ws => cases h; exact .one _ _

theorem readLong_eq_some {ws rest : List Half} {v : Word} (h : readLong ws = some (v, rest)) : Took 2 ws rest := by
  match ws, h with
  | hi :: lo :: ws, h => cases h; exact ⟨[hi, lo], rfl, rfl⟩

theorem readImm_eq_some {sz : Size} {ws rest : List Half} {v : Word} (h : readImm sz ws = some (v, rest)) :
    sz.fits v = true ∧ Took (immWords sz v).length ws rest := by
  cases sz with
  | l => exact ⟨decide_eq_true v.isLt, readLong_eq_some h⟩
  | b | w =>
    obtain ⟨⟨w, ws'⟩, hw, he⟩ := Option.map_eq_some_iff.1 h
    cases he
    exact ⟨decide_eq_true (by rw [BitVec.toNat_setWidth_of_le (by decide)]; exact BitVec.isLt _), readWord_eq_some hw⟩

theorem EaField.eq_of_val {f : EaField} {m r : RegNo} (hm : f.mode.val = m.val) (hr : f.reg.val = r.val) :
    (⟨m, r⟩ : EaField) = f := by
  cases f
  rw [EaField.mk.injEq]
  exact ⟨Fin.ext hm.symm, Fin.ext hr.symm⟩

theorem readEa_eq_some {f : EaField} {sz : Size} {ws rest : List Half} {ea : Ea}
    (h : readEa f sz ws = some (ea, rest)) :
    ea.field = f ∧ ea.immFits sz = true ∧ Took (ea.words sz).length ws rest := by
  unfold readEa at h
  split at h
  case h_1 hm | h_2 hm | h_3 hm | h_4 hm | h_5 hm =>
    cases h
    exact ⟨EaField.eq_of_val hm rfl, rfl, .zero _⟩
  case h_6 hm | h_7 hm =>
    obtain ⟨⟨w, ws'⟩, hw, he⟩ := Option.map_eq_some_iff.1 h
    cases he
    exact ⟨EaField.eq_of_val hm rfl, rfl, readWord_eq_some hw⟩
  case h_8 h0 h1 h2 h3 h4 h5 h6 =>
    have hm : f.mode.val = 7 := by
      simp only [imp_false] at h0 h1 h2 h3 h4 h5 h6
      omega
    split at h
    case h_6 => cases h
    all_goals
      obtain ⟨⟨w, ws'⟩, hw, he⟩ := Option.map_eq_some_iff.1 h
      cases he
    case h_1 hr | h_3 hr | h_4 hr => exact ⟨EaField.eq_of_val hm hr, rfl, readWord_eq_some hw⟩
    case h_2 hr => exact ⟨EaField.eq_of_val hm hr, rfl, readLong_eq_some hw⟩
    case h_5 hr => exact ⟨EaField.eq_of_val hm hr, readImm_eq_some hw⟩

end Sys2Proof
end

section
/-! SUPPORT. What a row of the opcode map answers is an instruction of the row, encoded by the word read: one lemma for
each format of R114. -/

namespace Sys2Proof

/-- Whatever the row reads is well-formed and of the model, and is encoded by the word read and as many words after it
as were taken. -/
def Row.Sound (r : Row) : Prop :=
  ∀ m op ws i rest, r.selects m op = true → r.read op ws = some (i, rest) →
    i.wf = true ∧ i.onModel m = true ∧ ∃ tail, encode i = op :: tail ∧ Took tail.length ws rest

/-! ## Fields as numbers -/

section
variable {op p mask : Half}

/-- A pattern has no bits outside its mask. -/
theorem field_eq_zero (hp : p &&& mask = p) {lo w : Nat} (hm : field mask lo w = 0) : field p lo w = 0 := by
  refine Nat.eq_of_testBit_eq fun i => ?_
  have := congrArg (·.testBit i) hm
  simp only [testBit_field, Nat.zero_testBit, Bool.and_eq_false_imp] at this ⊢
  intro hi
  rw [← hp, BitVec.getLsbD_and, this hi, Bool.and_false]

theorem sizeSS_ss (h : field op 6 2 ≠ 3) : (sizeSS op).ss = field op 6 2 * 64 := by
  have hlt : field op 6 2 < 4 := Nat.mod_lt _ (by decide)
  unfold sizeSS
  split
  next h0 => rw [h0]; rfl
  next h1 => rw [h1]; rfl
  next h0 h1 =>
    have h2 : field op 6 2 = 2 := by
      simp only [imp_false] at h0 h1
      omega
    rw [h2]
    rfl

theorem sizeWL_isWL (i : Nat) : (sizeWL op i).isWL = true := by
  unfold sizeWL
  split <;> rfl

theorem sizeWL_wl (i : Nat) : (sizeWL op i).wl i = field op i 1 * 2 ^ i := by
  have hlt : field op i 1 < 2 := Nat.mod_lt _ (by decide)
  have hbit : bitAt op i = decide (field op i 1 = 1) := rfl
  unfold sizeWL
  by_cases h : field op i 1 = 1
  · simp [hbit, h, Size.wl]
  · have h0 : field op i 1 = 0 := by omega
    simp [hbit, h0, Size.wl]

theorem eaFieldOf_bits : (eaFieldOf op).bits = field op 0 6 := by
  simp only [EaField.bits, eaFieldOf, regAt_val, field]
  omega

theorem dstFieldOf_bits : (dstFieldOf op).dstBits = field op 6 6 * 64 := by
  simp only [EaField.dstBits, dstFieldOf, regAt_val, field]
  omega

theorem toNat_bitAt (i : Nat) : (bitAt op i).toNat = field op i 1 := by
  have hlt : field op i 1 < 2 := Nat.mod_lt _ (by decide)
  have hbit : bitAt op i = decide (field op i 1 = 1) := rfl
  rw [hbit]
  by_cases h : field op i 1 = 1
  · simp [h]
  · have h0 : field op i 1 = 0 := by omega
    simp [h0]

theorem code_condOf : (condOf op).code = field op 8 4 := by
  have hlt : field op 8 4 < 16 := Nat.mod_lt _ (by decide)
  have : ∀ n < 16, (Cond.ofCode n).code = n := by decide
  exact this _ hlt

end

/-- The opcode word of an encoding with an effective address. -/
theorem encEa_eq {base : Nat} {own : List Half} {sz : Size} {ea : Ea} {op : Half} (hf : ea.field = eaFieldOf op)
    (h : base + field op 0 6 = op.toNat) : encEa base own sz ea = op :: (own ++ ea.words sz) := by
  rw [encEa, hf, eaFieldOf_bits, wordOf_eq h]

/-- An effective address that was read is of the class of its field. -/
theorem ok_of_field {cls : EaClass} {sz : Size} {ea : Ea} {op : Half} (hf : ea.field = eaFieldOf op)
    (hfit : ea.immFits sz = true) (hcls : cls.admits (field op 3 3) (field op 0 3) = true) : ea.ok cls sz = true := by
  rw [Ea.ok, hf, hfit, Bool.and_true]
  exact hcls

/-- "An not allowed for B" (R113). -/
theorem byteOk_of_field {sz : Size} {ea : Ea} {op : Half} (hf : ea.field = eaFieldOf op)
    (h : sz = .b → field op 3 3 ≠ 1) : ea.byteOk sz = true := by
  cases ea with
  | areg n =>
    refine decide_eq_true fun hb => h hb ?_
    exact (congrArg (fun f => f.mode.val) hf).symm
  | _ => rfl

theorem toNat_fields (op : Half) :
    op.toNat = field op 12 4 * 4096 + field op 9 3 * 512 + field op 8 1 * 256 + field op 6 2 * 64 + field op 3 3 * 8 +
      field op 0 3 := by
  simp only [field]
  omega

theorem toNat_fieldsF118 (op : Half) :
    op.toNat = field op 12 4 * 4096 + field op 9 3 * 512 + field op 8 1 * 256 + field op 5 3 * 32 + field op 3 2 * 8 +
      field op 0 3 ∧ field op 5 3 = field op 6 2 * 2 + field op 5 1 := by
  simp only [field]
  omega

theorem shiftCountOf_bits {op : Half} : (shiftCountOf op).bits = field op 9 3 * 512 + field op 5 1 * 32 := by
  have hb := toNat_bitAt (op := op) 5
  unfold shiftCountOf
  cases h : bitAt op 5 <;> rw [h] at hb <;> simp [ShiftCount.bits, regAt_val, ← hb]

/-! ## What a reader answers -/

namespace Row.Sound

section
variable {name : String} {pat mask : Half} {g : Guard}

/-- The guard and the fields of the pattern are what a selected word has. -/
theorem rdOp {k : Half → Instr}
    (h : ∀ m op, op &&& mask = pat → g m op = true →
      (k op).wf = true ∧ (k op).onModel m = true ∧ encode (k op) = [op]) :
    Sound ⟨name, pat, mask, g, Sys2Proof.rdOp k⟩ := by
  intro m op ws i rest hs hr
  obtain ⟨hmask, hg⟩ := Row.selects_iff.1 hs
  cases hr
  obtain ⟨hwf, hmodel, henc⟩ := h m op hmask hg
  exact ⟨hwf, hmodel, [], henc, .zero _⟩

theorem rdWord {k : Half → Half → Instr}
    (h : ∀ m op w, op &&& mask = pat → g m op = true →
      (k op w).wf = true ∧ (k op w).onModel m = true ∧ ∃ w', encode (k op w) = [op, w']) :
    Sound ⟨name, pat, mask, g, Sys2Proof.rdWord k⟩ := by
  intro m op ws i rest hs hr
  obtain ⟨hmask, hg⟩ := Row.selects_iff.1 hs
  obtain ⟨⟨w, ws'⟩, hw, he⟩ := Option.map_eq_some_iff.1 hr
  cases he
  obtain ⟨hwf, hmodel, w', henc⟩ := h m op w hmask hg
  exact ⟨hwf, hmodel, [w'], henc, readWord_eq_some hw⟩

theorem rdSizedEa {szf : Half → Size} {k : Half → Size → Ea → Instr} (base : Half → Nat)
    (h : ∀ m op ea, op &&& mask = pat → g m op = true → ea.field = eaFieldOf op → ea.immFits (szf op) = true →
      (k op (szf op) ea).wf = true ∧ (k op (szf op) ea).onModel m = true ∧
      encode (k op (szf op) ea) = encEa (base op) [] (szf op) ea ∧ base op + field op 0 6 = op.toNat) :
    Sound ⟨name, pat, mask, g, Sys2Proof.rdSizedEa szf k⟩ := by
  intro m op ws i rest hs hr
  obtain ⟨hmask, hg⟩ := Row.selects_iff.1 hs
  obtain ⟨⟨ea, ws'⟩, hea, he⟩ := Option.map_eq_some_iff.1 hr
  cases he
  obtain ⟨hf, hfit, htook⟩ := readEa_eq_some hea
  obtain ⟨hwf, hmodel, henc, hbase⟩ := h m op ea hmask hg hf hfit
  exact ⟨hwf, hmodel, _, henc.trans (encEa_eq hf hbase), htook⟩

theorem rdWordEa {szf : Half → Size} {k : Half → Size → Half → Ea → Instr} (base : Half → Nat)
    (h : ∀ m op w ea, op &&& mask = pat → g m op = true → ea.field = eaFieldOf op → ea.immFits (szf op) = true →
      (k op (szf op) w ea).wf = true ∧ (k op (szf op) w ea).onModel m = true ∧
      (∃ w', encode (k op (szf op) w ea) = encEa (base op) [w'] (szf op) ea) ∧ base op + field op 0 6 = op.toNat) :
    Sound ⟨name, pat, mask, g, Sys2Proof.rdWordEa szf k⟩ := by
  intro m op ws i rest hs hr
  obtain ⟨hmask, hg⟩ := Row.selects_iff.1 hs
  obtain ⟨⟨w, ws'⟩, hw, hr'⟩ := Option.bind_eq_some_iff.1 hr
  obtain ⟨⟨ea, ws''⟩, hea, he⟩ := Option.map_eq_some_iff.1 hr'
  cases he
  obtain ⟨hf, hfit, htook⟩ := readEa_eq_some hea
  obtain ⟨hwf, hmodel, ⟨w', henc⟩, hbase⟩ := h m op w ea hmask hg hf hfit
  refine ⟨hwf, hmodel, _, henc.trans (encEa_eq hf hbase), ?_⟩
  rw [List.length_append]
  exact (readWord_eq_some hw).trans htook

end

/-! ## The formats of the opcode map -/

section
variable {name : String} {pat : Half} {cls : EaClass}

/-! Every word of a line is like its pattern in the bits of the mask, which are the bits that no operand has. -/

/-- An immediate and an effective address of the standard size. -/
theorem immEa {k : Size → Word → Ea → Instr} (hp : pat &&& 0xFF00#16 = pat := by decide)
    (hwf : ∀ sz v ea, (k sz v ea).wf = (sz.fits v && ea.ok cls sz) := by exact fun _ _ _ => rfl)
    (hm : ∀ m sz v ea, (k sz v ea).onModel m = true := by exact fun _ _ _ _ => rfl)
    (henc : ∀ sz v ea, encode (k sz v ea) = encEa (pat.toNat + sz.ss) (immWords sz v) sz ea := by
      exact fun _ _ _ => rfl) :
    Sound ⟨name, pat, 0xFF00#16, gSizeEa cls, rdImmEa k⟩ := by
  intro m op ws i rest hs hr
  obtain ⟨⟨v, ws'⟩, hv, hr'⟩ := Option.bind_eq_some_iff.1 hr
  obtain ⟨⟨ea, ws''⟩, hea, he⟩ := Option.map_eq_some_iff.1 hr'
  cases he
  obtain ⟨hfits, hvtook⟩ := readImm_eq_some hv
  obtain ⟨hf, hfit, htook⟩ := readEa_eq_some hea
  obtain ⟨hs, hg⟩ := Row.selects_iff.1 hs
  rw [maskFF00 hp] at hs
  obtain ⟨hsize, hcls⟩ := gSizeEa_iff.1 hg
  have hz := field_eq_zero hp (lo := 0) (w := 8) (by decide)
  refine ⟨by rw [hwf, hfits, ok_of_field hf hfit hcls]; rfl, hm .., _, (henc ..).trans (encEa_eq hf ?_), ?_⟩
  · simp only [sizeSS_ss hsize, field] at *
    omega
  · rw [List.length_append]
    exact hvtook.trans htook

/-- A bit number and an effective address. -/
theorem byteEa {k : Byte → Ea → Instr} (hp : pat &&& 0xFFC0#16 = pat := by decide)
    (hwf : ∀ b ea, (k b ea).wf = ea.ok cls .b := by exact fun _ _ => rfl)
    (hm : ∀ m b ea, (k b ea).onModel m = true := by exact fun _ _ _ => rfl)
    (henc : ∀ b ea, encode (k b ea) = encEa pat.toNat [byteWord b] .b ea := by exact fun _ _ => rfl) :
    Sound ⟨name, pat, 0xFFC0#16, gEa cls, Sys2Proof.rdWordEa (fun _ => .b) fun _ _ w ea => k (loByte w) ea⟩ := by
  refine rdWordEa (fun _ => pat.toNat) fun m op w ea hs hg hf hfit => ?_
  rw [maskFFC0 hp] at hs
  have hz := field_eq_zero hp (lo := 0) (w := 6) (by decide)
  refine ⟨(hwf ..).trans (ok_of_field hf hfit hg), hm .., ⟨_, henc ..⟩, ?_⟩
  simp only [field] at *
  omega

/-- An effective address, and no other operand. -/
theorem ea {sz : Size} {k : Ea → Instr} (hp : pat &&& 0xFFC0#16 = pat := by decide)
    (hwf : ∀ ea, (k ea).wf = ea.ok cls sz := by exact fun _ => rfl)
    (hm : ∀ m ea, (k ea).onModel m = true := by exact fun _ _ => rfl)
    (henc : ∀ ea, encode (k ea) = encEa pat.toNat [] sz ea := by exact fun _ => rfl) :
    Sound ⟨name, pat, 0xFFC0#16, gEa cls, rdEa sz fun _ ea => k ea⟩ := by
  refine rdSizedEa (k := fun _ _ ea => k ea) (fun _ => pat.toNat) fun m op ea hs hg hf hfit => ?_
  rw [maskFFC0 hp] at hs
  have hz := field_eq_zero hp (lo := 0) (w := 6) (by decide)
  refine ⟨(hwf _).trans (ok_of_field hf hfit hg), hm .., henc _, ?_⟩
  simp only [field] at *
  omega

/-- A register in bits 11:9 and an effective address. -/
theorem reg9Ea {sz : Size} {k : RegNo → Ea → Instr} (hp : pat &&& 0xF1C0#16 = pat := by decide)
    (hwf : ∀ n ea, (k n ea).wf = ea.ok cls sz := by exact fun _ _ => rfl)
    (hm : ∀ m n ea, (k n ea).onModel m = true := by exact fun _ _ _ => rfl)
    (henc : ∀ n ea, encode (k n ea) = encEa (pat.toNat + n.val * 512) [] sz ea := by exact fun _ _ => rfl) :
    Sound ⟨name, pat, 0xF1C0#16, gEa cls, rdEa sz fun op ea => k (regAt op 9) ea⟩ := by
  refine rdSizedEa (k := fun op _ ea => k (regAt op 9) ea) (fun op => pat.toNat + (regAt op 9).val * 512)
    fun m op ea hs hg hf hfit => ?_
  rw [maskF1C0 hp] at hs
  have hz := field_eq_zero hp (lo := 0) (w := 6) (by decide)
  have hz9 := field_eq_zero hp (lo := 9) (w := 3) (by decide)
  refine ⟨(hwf ..).trans (ok_of_field hf hfit hg), hm .., henc .., ?_⟩
  simp only [regAt_val, field] at *
  omega

/-- An effective address of the standard size. -/
theorem ssEa {k : Size → Ea → Instr} (hp : pat &&& 0xFF00#16 = pat := by decide)
    (hwf : ∀ sz ea, (k sz ea).wf = ea.ok cls sz := by exact fun _ _ => rfl)
    (hm : ∀ m sz ea, (k sz ea).onModel m = true := by exact fun _ _ _ => rfl)
    (henc : ∀ sz ea, encode (k sz ea) = encEa (pat.toNat + sz.ss) [] sz ea := by exact fun _ _ => rfl) :
    Sound ⟨name, pat, 0xFF00#16, gSizeEa cls, Sys2Proof.rdSizedEa sizeSS fun _ sz ea => k sz ea⟩ := by
  refine rdSizedEa (fun op => pat.toNat + (sizeSS op).ss) fun m op ea hs hg hf hfit => ?_
  rw [maskFF00 hp] at hs
  obtain ⟨hsize, hcls⟩ := gSizeEa_iff.1 hg
  have hz := field_eq_zero hp (lo := 0) (w := 8) (by decide)
  refine ⟨(hwf ..).trans (ok_of_field hf hfit hcls), hm .., henc .., ?_⟩
  simp only [sizeSS_ss hsize, field] at *
  omega

/-- A register in bits 11:9 and an effective address of the standard size. -/
theorem reg9SsEa {k : Size → RegNo → Ea → Instr} (hp : pat &&& 0xF100#16 = pat := by decide)
    (hwf : ∀ sz n ea, (k sz n ea).wf = ea.ok cls sz := by exact fun _ _ _ => rfl)
    (hm : ∀ m sz n ea, (k sz n ea).onModel m = true := by exact fun _ _ _ _ => rfl)
    (henc : ∀ sz n ea, encode (k sz n ea) = encEa (pat.toNat + n.val * 512 + sz.ss) [] sz ea := by
      exact fun _ _ _ => rfl) :
    Sound ⟨name, pat, 0xF100#16, gSizeEa cls, Sys2Proof.rdSizedEa sizeSS fun op sz ea => k sz (regAt op 9) ea⟩ := by
  refine rdSizedEa (fun op => pat.toNat + (regAt op 9).val * 512 + (sizeSS op).ss) fun m op ea hs hg hf hfit => ?_
  rw [maskF100 hp] at hs
  obtain ⟨hsize, hcls⟩ := gSizeEa_iff.1 hg
  have hz := field_eq_zero hp (lo := 0) (w := 8) (by decide)
  have hz9 := field_eq_zero hp (lo := 9) (w := 3) (by decide)
  refine ⟨(hwf ..).trans (ok_of_field hf hfit hcls), hm .., henc .., ?_⟩
  simp only [sizeSS_ss hsize, regAt_val, field] at *
  omega

/-- The same, with no address register at size B. -/
theorem reg9SsEaNoAnB {k : Size → RegNo → Ea → Instr} (hp : pat &&& 0xF100#16 = pat := by decide)
    (hwf : ∀ sz n ea, (k sz n ea).wf = (ea.ok cls sz && ea.byteOk sz) := by exact fun _ _ _ => rfl)
    (hm : ∀ m sz n ea, (k sz n ea).onModel m = true := by exact fun _ _ _ _ => rfl)
    (henc : ∀ sz n ea, encode (k sz n ea) = encEa (pat.toNat + n.val * 512 + sz.ss) [] sz ea := by
      exact fun _ _ _ => rfl) :
    Sound ⟨name, pat, 0xF100#16, gSizeEaNoAnB cls,
      Sys2Proof.rdSizedEa sizeSS fun op sz ea => k sz (regAt op 9) ea⟩ := by
  refine rdSizedEa (fun op => pat.toNat + (regAt op 9).val * 512 + (sizeSS op).ss) fun m op ea hs hg hf hfit => ?_
  rw [maskF100 hp] at hs
  obtain ⟨⟨hsize, hcls⟩, hAn⟩ := gSizeEaNoAnB_iff.1 hg
  have hb : sizeSS op = .b → field op 6 2 = 0 := fun hb => by
    have := sizeSS_ss hsize
    rw [hb, Size.ss] at this
    omega
  have hz := field_eq_zero hp (lo := 0) (w := 8) (by decide)
  have hz9 := field_eq_zero hp (lo := 9) (w := 3) (by decide)
  refine ⟨?_, hm .., henc .., ?_⟩
  · rw [hwf, ok_of_field hf hfit hcls, byteOk_of_field hf fun h h1 => hAn ⟨hb h, h1⟩]
    rfl
  · simp only [sizeSS_ss hsize, regAt_val, field] at *
    omega

/-- A register in bits 11:9 and an effective address of size W or L by bit 8. -/
theorem reg9WlEa {k : Size → RegNo → Ea → Instr} (hp : pat &&& 0xF0C0#16 = pat := by decide)
    (hwf : ∀ sz n ea, (k sz n ea).wf = (sz.isWL && ea.ok cls sz) := by exact fun _ _ _ => rfl)
    (hm : ∀ m sz n ea, (k sz n ea).onModel m = true := by exact fun _ _ _ _ => rfl)
    (henc : ∀ sz n ea, encode (k sz n ea) = encEa (pat.toNat + n.val * 512 + sz.wl 8) [] sz ea := by
      exact fun _ _ _ => rfl) :
    Sound ⟨name, pat, 0xF0C0#16, gEa cls, Sys2Proof.rdSizedEa (sizeWL · 8) fun op sz ea => k sz (regAt op 9) ea⟩ := by
  refine rdSizedEa (fun op => pat.toNat + (regAt op 9).val * 512 + (sizeWL op 8).wl 8) fun m op ea hs hg hf hfit => ?_
  rw [maskF0C0 hp] at hs
  have hz := field_eq_zero hp (lo := 0) (w := 6) (by decide)
  have hz8 := field_eq_zero hp (lo := 8) (w := 4) (by decide)
  refine ⟨by rw [hwf, sizeWL_isWL, ok_of_field hf hfit hg]; rfl, hm .., henc .., ?_⟩
  simp only [sizeWL_wl, regAt_val, field] at *
  omega

/-- A register mask and an effective address of size W or L by bit 6. -/
theorem wlWordEa {k : Size → Half → Ea → Instr} (hp : pat &&& 0xFF80#16 = pat := by decide)
    (hwf : ∀ sz w ea, (k sz w ea).wf = (sz.isWL && ea.ok cls sz) := by exact fun _ _ _ => rfl)
    (hm : ∀ m sz w ea, (k sz w ea).onModel m = true := by exact fun _ _ _ _ => rfl)
    (henc : ∀ sz w ea, encode (k sz w ea) = encEa (pat.toNat + sz.wl 6) [w] sz ea := by exact fun _ _ _ => rfl) :
    Sound ⟨name, pat, 0xFF80#16, gEa cls, Sys2Proof.rdWordEa (sizeWL · 6) fun _ sz w ea => k sz w ea⟩ := by
  refine rdWordEa (fun op => pat.toNat + (sizeWL op 6).wl 6) fun m op w ea hs hg hf hfit => ?_
  rw [maskFF80 hp] at hs
  have hz := field_eq_zero hp (lo := 0) (w := 7) (by decide)
  refine ⟨by rw [hwf, sizeWL_isWL, ok_of_field hf hfit hg]; rfl, hm .., ⟨_, henc ..⟩, ?_⟩
  simp only [sizeWL_wl, field] at *
  omega

/-- A register mask and a register in bits 2:0, of size W or L by bit 6. -/
theorem wlWord {k : Size → Half → RegNo → Instr} (hp : pat &&& 0xFFB8#16 = pat := by decide)
    (hwf : ∀ sz w n, (k sz w n).wf = sz.isWL := by exact fun _ _ _ => rfl)
    (hm : ∀ m sz w n, (k sz w n).onModel m = true := by exact fun _ _ _ _ => rfl)
    (henc : ∀ sz w n, encode (k sz w n) = [wordOf (pat.toNat + sz.wl 6 + n.val), w] := by exact fun _ _ _ => rfl) :
    Sound ⟨name, pat, 0xFFB8#16, gAll, Sys2Proof.rdWord fun op w => k (sizeWL op 6) w (regAt op 0)⟩ := by
  refine rdWord fun m op w hs _ => ?_
  rw [maskFFB8 hp] at hs
  have hz := field_eq_zero hp (lo := 0) (w := 3) (by decide)
  have hz6 := field_eq_zero hp (lo := 6) (w := 1) (by decide)
  refine ⟨(hwf ..).trans (sizeWL_isWL 6), hm .., w, ?_⟩
  rw [henc, wordOf_eq]
  simp only [sizeWL_wl, regAt_val, field] at *
  omega

/-- A register in bits 2:0. -/
theorem reg0 {g : Guard} {k : RegNo → Instr} (hp : pat &&& 0xFFF8#16 = pat := by decide)
    (hwf : ∀ n, (k n).wf = true := by exact fun _ => rfl)
    (hm : ∀ m op n, g m op = true → (k n).onModel m = true := by exact fun _ _ _ _ => rfl)
    (henc : ∀ n, encode (k n) = [wordOf (pat.toNat + n.val)] := by exact fun _ => rfl) :
    Sound ⟨name, pat, 0xFFF8#16, g, Sys2Proof.rdOp fun op => k (regAt op 0)⟩ := by
  refine rdOp fun m op hs hg => ?_
  rw [maskFFF8 hp] at hs
  have hz := field_eq_zero hp (lo := 0) (w := 3) (by decide)
  refine ⟨hwf _, hm m op _ hg, ?_⟩
  rw [henc, wordOf_eq]
  simp only [regAt_val, field] at *
  omega

/-- Two registers. -/
theorem xy {k : RegNo → RegNo → Instr} (hp : pat &&& 0xF1F8#16 = pat := by decide)
    (hwf : ∀ x y, (k x y).wf = true := by exact fun _ _ => rfl)
    (hm : ∀ m x y, (k x y).onModel m = true := by exact fun _ _ _ => rfl)
    (henc : ∀ x y, encode (k x y) = encXY pat.toNat x y := by exact fun _ _ => rfl) :
    Sound ⟨name, pat, 0xF1F8#16, gAll, Sys2Proof.rdOp fun op => k (regAt op 9) (regAt op 0)⟩ := by
  refine rdOp fun m op hs _ => ?_
  rw [maskF1F8 hp] at hs
  have hz := field_eq_zero hp (lo := 0) (w := 3) (by decide)
  have hz9 := field_eq_zero hp (lo := 9) (w := 3) (by decide)
  refine ⟨hwf .., hm .., ?_⟩
  rw [henc, encXY, wordOf_eq]
  simp only [regAt_val, field] at *
  omega

/-- Two registers and a displacement. -/
theorem xyWord {k : RegNo → RegNo → Half → Instr} (hp : pat &&& 0xF1F8#16 = pat := by decide)
    (hwf : ∀ x y d, (k x y d).wf = true := by exact fun _ _ _ => rfl)
    (hm : ∀ m x y d, (k x y d).onModel m = true := by exact fun _ _ _ _ => rfl)
    (henc : ∀ x y d, encode (k x y d) = encXY pat.toNat x y ++ [d] := by exact fun _ _ _ => rfl) :
    Sound ⟨name, pat, 0xF1F8#16, gAll, Sys2Proof.rdWord fun op w => k (regAt op 9) (regAt op 0) w⟩ := by
  refine rdWord fun m op w hs _ => ?_
  rw [maskF1F8 hp] at hs
  have hz := field_eq_zero hp (lo := 0) (w := 3) (by decide)
  have hz9 := field_eq_zero hp (lo := 9) (w := 3) (by decide)
  refine ⟨hwf .., hm .., w, ?_⟩
  rw [henc, encXY, wordOf_eq]
  · rfl
  simp only [regAt_val, field] at *
  omega

/-- Two registers at the standard size. -/
theorem ssXy {k : Size → RegNo → RegNo → Instr} (hp : pat &&& 0xF138#16 = pat := by decide)
    (hwf : ∀ sz x y, (k sz x y).wf = true := by exact fun _ _ _ => rfl)
    (hm : ∀ m sz x y, (k sz x y).onModel m = true := by exact fun _ _ _ _ => rfl)
    (henc : ∀ sz x y, encode (k sz x y) = encXY (pat.toNat + sz.ss) x y := by exact fun _ _ _ => rfl) :
    Sound ⟨name, pat, 0xF138#16, gSize, Sys2Proof.rdOp fun op => k (sizeSS op) (regAt op 9) (regAt op 0)⟩ := by
  refine rdOp fun m op hs hg => ?_
  rw [maskF138 hp] at hs
  have hsize := gSize_iff.1 hg
  have hz := field_eq_zero hp (lo := 0) (w := 3) (by decide)
  have hz6 := field_eq_zero hp (lo := 6) (w := 2) (by decide)
  have hz9 := field_eq_zero hp (lo := 9) (w := 3) (by decide)
  refine ⟨hwf .., hm .., ?_⟩
  rw [henc, encXY, wordOf_eq]
  rw [sizeSS_ss hsize, regAt_val, regAt_val]
  have hop := toNat_fields op
  have hpat := toNat_fields pat
  omega

/-- Two registers and the bit between them. -/
theorem xBitY {k : RegNo → Bool → RegNo → Instr} (hp : pat &&& 0xF1F0#16 = pat := by decide)
    (hwf : ∀ x b y, (k x b y).wf = true := by exact fun _ _ _ => rfl)
    (hm : ∀ m x b y, (k x b y).onModel m = m.is20 := by exact fun _ _ _ _ => rfl)
    (henc : ∀ x b y, encode (k x b y) = [wordOf (pat.toNat + x.val * 512 + b.toNat * 8 + y.val)] := by
      exact fun _ _ _ => rfl) :
    Sound ⟨name, pat, 0xF1F0#16, g20 fun _ => true,
      Sys2Proof.rdOp fun op => k (regAt op 9) (bitAt op 3) (regAt op 0)⟩ := by
  refine rdOp fun m op hs hg => ?_
  rw [maskF1F0 hp] at hs
  have hz := field_eq_zero hp (lo := 0) (w := 4) (by decide)
  have hz9 := field_eq_zero hp (lo := 9) (w := 3) (by decide)
  refine ⟨hwf .., (hm ..).trans (g20_iff.1 hg).1, ?_⟩
  rw [henc, wordOf_eq]
  simp only [toNat_bitAt, regAt_val, field] at *
  omega

/-- A shift of a register. -/
theorem shReg {k : Size → ShiftCount → RegNo → Instr} (hp : pat &&& 0xF118#16 = pat := by decide)
    (hwf : ∀ sz c n, (k sz c n).wf = true := by exact fun _ _ _ => rfl)
    (hm : ∀ m sz c n, (k sz c n).onModel m = true := by exact fun _ _ _ _ => rfl)
    (henc : ∀ sz c n, encode (k sz c n) = [wordOf (pat.toNat + c.bits + sz.ss + n.val)] := by
      exact fun _ _ _ => rfl) :
    Sound ⟨name, pat, 0xF118#16, gSize, rdShReg k⟩ := by
  refine rdOp fun m op hs hg => ?_
  rw [maskF118 hp] at hs
  have hsize := gSize_iff.1 hg
  have hz := field_eq_zero hp (lo := 0) (w := 3) (by decide)
  have hz5 := field_eq_zero hp (lo := 5) (w := 3) (by decide)
  have hz9 := field_eq_zero hp (lo := 9) (w := 3) (by decide)
  refine ⟨hwf .., hm .., ?_⟩
  rw [henc, wordOf_eq]
  rw [sizeSS_ss hsize, shiftCountOf_bits, regAt_val]
  have hop := toNat_fieldsF118 op
  have hpat := toNat_fieldsF118 pat
  omega

/-- The words of lines A and F. -/
theorem line {k : BitVec 12 → Instr} (hp : pat &&& 0xF000#16 = pat := by decide)
    (hwf : ∀ v, (k v).wf = true := by exact fun _ => rfl)
    (hm : ∀ m v, (k v).onModel m = true := by exact fun _ _ => rfl)
    (henc : ∀ v, encode (k v) = [wordOf (pat.toNat + v.toNat)] := by exact fun _ => rfl) :
    Sound ⟨name, pat, 0xF000#16, gAll, Sys2Proof.rdOp fun op => k (BitVec.ofNat 12 op.toNat)⟩ := by
  refine rdOp fun m op hs _ => ?_
  rw [maskF000 hp] at hs
  have hz := field_eq_zero hp (lo := 0) (w := 12) (by decide)
  refine ⟨hwf _, hm .., ?_⟩
  rw [henc, wordOf_eq]
  simp only [BitVec.toNat_ofNat, field] at *
  omega

/-- One word. -/
theorem single {i : Instr} (hwf : i.wf = true := by exact rfl)
    (hm : ∀ m, i.onModel m = true := by exact fun _ => rfl) (henc : encode i = [pat] := by exact rfl) :
    Sound ⟨name, pat, 0xFFFF#16, gAll, Sys2Proof.rdOp fun _ => i⟩ := by
  refine rdOp fun m op hs _ => ⟨hwf, hm m, ?_⟩
  rw [henc, ← hs, show (0xFFFF#16) = BitVec.allOnes 16 from rfl, BitVec.and_allOnes]

/-- One word and an operand after it. -/
theorem singleWord {g : Guard} {k : Half → Instr} (hwf : ∀ w, (k w).wf = true := by exact fun _ => rfl)
    (hm : ∀ m op w, g m op = true → (k w).onModel m = true := by exact fun _ _ _ _ => rfl)
    (henc : ∀ w, ∃ w', encode (k w) = [pat, w'] := by exact fun _ => ⟨_, rfl⟩) :
    Sound ⟨name, pat, 0xFFFF#16, g, Sys2Proof.rdWord fun _ w => k w⟩ := by
  refine rdWord fun m op w hs hg => ⟨hwf w, hm m op w hg, ?_⟩
  rw [show (0xFFFF#16) = BitVec.allOnes 16 from rfl, BitVec.and_allOnes] at hs
  exact hs ▸ henc w

/-- MOVE, whose source and destination are both effective addresses. -/
theorem move {g : Guard} {sz : Size} {k : Ea → Ea → Instr}
    (hp : pat &&& 0xF000#16 = pat := by decide)
    (hwf : ∀ m op src dst, g m op = true → src.field = eaFieldOf op → src.immFits sz = true →
      dst.field = dstFieldOf op → dst.immFits sz = true → (k src dst).wf = true)
    (hm : ∀ m src dst, (k src dst).onModel m = true := by exact fun _ _ _ => rfl)
    (henc : ∀ src dst, encode (k src dst) = encMove pat.toNat sz src dst := by exact fun _ _ => rfl) :
    Sound ⟨name, pat, 0xF000#16, g, rdMove sz k⟩ := by
  intro m op ws i rest hs hr
  obtain ⟨hs, hg⟩ := Row.selects_iff.1 hs
  obtain ⟨⟨src, ws'⟩, hsrc, hr'⟩ := Option.bind_eq_some_iff.1 hr
  obtain ⟨⟨dst, ws''⟩, hdst, he⟩ := Option.map_eq_some_iff.1 hr'
  cases he
  obtain ⟨hf, hfit, htook⟩ := readEa_eq_some hsrc
  obtain ⟨hf', hfit', htook'⟩ := readEa_eq_some hdst
  rw [maskF000 hp] at hs
  have hz := field_eq_zero hp (lo := 0) (w := 12) (by decide)
  refine ⟨hwf m op _ _ hg hf hfit hf' hfit', hm .., src.words sz ++ dst.words sz, ?_, ?_⟩
  · rw [henc, encMove, hf, hf', eaFieldOf_bits, dstFieldOf_bits, wordOf_eq]
    simp only [field] at *
    omega
  · rw [List.length_append]
    exact htook.trans htook'

end

end Row.Sound

end Sys2Proof
end

section
/-! SUPPORT. The rows with a format of their own, and the soundness of the whole opcode map. -/

namespace Sys2Proof

/-- An effective address of the destination of MOVE. -/
theorem ok_of_dst {cls : EaClass} {sz : Size} {ea : Ea} {op : Half} (hf : ea.field = dstFieldOf op)
    (hfit : ea.immFits sz = true) (hcls : cls.admitsField (dstFieldOf op) = true) : ea.ok cls sz = true := by
  rw [Ea.ok, hf, hfit, hcls]
  rfl

/-- A condition code from 2 on is one of Bcc. -/
theorem isBcc_condOf {op : Half} (h : 2 ≤ field op 8 4) : (condOf op).isBcc = true := by
  have hlt : field op 8 4 < 16 := Nat.mod_lt _ (by decide)
  have : ∀ n < 16, 2 ≤ n → (Cond.ofCode n).isBcc = true := by decide
  exact this _ hlt h

theorem field_size_val {op : Half} : (Fin.ofNat 4 (field op 9 2)).val = field op 9 2 :=
  Nat.mod_eq_of_lt (Nat.mod_lt _ (by decide))

namespace Row.Sound

section
variable {name : String} {pat : Half} {cls : EaClass}

/-- A branch: a displacement byte of 0 marks the 16-bit form (R111). -/
theorem rdBranch {mask : Half} {g : Half → Bool} {k : Half → BranchDisp → Instr} (base : Half → Nat)
    (hwf : ∀ op d, op &&& mask = pat → g op = true → d.wf = true → (k op d).wf = true)
    (hm : ∀ m op d, op &&& mask = pat → g op = true → (k op d).onModel m = !(m.is20 && d.isFF))
    (henc : ∀ op d, encode (k op d) = encBranch (base op) d)
    (hbase : ∀ op, op &&& mask = pat → base op + field op 0 8 = op.toNat) :
    Sound ⟨name, pat, mask, gBranch g, Sys2Proof.rdBranch k⟩ := by
  intro m op ws i rest hs hr
  obtain ⟨hs, hg⟩ := Row.selects_iff.1 hs
  obtain ⟨hg, hFF⟩ := gBranch_iff.1 hg
  have hbase := hbase op hs
  have hbyte : (loByte op).toNat = field op 0 8 := by simp [loByte, field]
  simp only [Sys2Proof.rdBranch] at hr
  split at hr
  next h0 =>
    obtain ⟨⟨w, ws'⟩, hw, he⟩ := Option.map_eq_some_iff.1 hr
    cases he
    refine ⟨hwf op _ hs hg rfl, by rw [hm m op _ hs hg]; simp [BranchDisp.isFF], [w], ?_, readWord_eq_some hw⟩
    rw [henc, encBranch, wordOf_eq (op := op) (by omega)]
  next h0 =>
    cases hr
    have h00 : loByte op ≠ 0 := fun h => h0 (by rw [← hbyte, h]; rfl)
    refine ⟨hwf op _ hs hg (decide_eq_true h00), ?_, [], ?_, .zero _⟩
    · rw [hm m op _ hs hg, Bool.not_eq_true', ← Bool.not_eq_true, Bool.and_eq_true]
      rintro ⟨h20, hd⟩
      exact hFF h20 (by rw [← hbyte, of_decide_eq_true hd]; rfl)
    · rw [henc, encBranch, wordOf_eq (op := op) (by omega)]

/-- A pattern of the MC68020 with an effective-address field. -/
theorem eaField {k : EaField → Instr} (hp : pat &&& 0xFFC0#16 = pat := by decide)
    (hwf : ∀ f, (k f).wf = cls.admitsField f := by exact fun _ => rfl)
    (hm : ∀ m f, (k f).onModel m = m.is20 := by exact fun _ _ => rfl)
    (henc : ∀ f, encode (k f) = [wordOf (pat.toNat + f.bits)] := by exact fun _ => rfl) :
    Sound ⟨name, pat, 0xFFC0#16, g20 (gEa cls .mc68020), Sys2Proof.rdOp fun op => k (eaFieldOf op)⟩ := by
  refine rdOp fun m op hs hg => ?_
  rw [maskFFC0 hp] at hs
  obtain ⟨h20, hcls⟩ := g20_iff.1 hg
  have hz := field_eq_zero hp (lo := 0) (w := 6) (by decide)
  refine ⟨(hwf _).trans hcls, (hm ..).trans h20, ?_⟩
  rw [henc, wordOf_eq]
  simp only [eaFieldOf_bits, field] at *
  omega

/-! ### Rows with a format of their own -/

theorem moves :
    Sound ⟨name, 0x0E00#16, 0xFF00#16, g10 (gSizeEa .memoryAlterable),
      Sys2Proof.rdWordEa sizeSS fun _ sz w ea => .moves sz (bitAt w 11) (gregOf w) ea⟩ := by
  refine rdWordEa (fun op => 0x0E00 + (sizeSS op).ss) fun m op w ea hs hg hf hfit => ?_
  obtain ⟨h10, hg⟩ := g10_iff.1 hg
  obtain ⟨hsize, hcls⟩ := gSizeEa_iff.1 hg
  refine ⟨ok_of_field hf hfit hcls, h10, ⟨_, rfl⟩, ?_⟩
  rw [maskFF00 (by decide)] at hs
  simp [sizeSS_ss hsize, field] at *
  omega

theorem moveB :
    Sound ⟨name, 0x1000#16, 0xF000#16,
      fun m op => gEa .all m op && decide (field op 3 3 ≠ 1) && EaClass.dataAlterable.admitsField (dstFieldOf op),
      rdMove .b .moveB⟩ := by
  refine move (hwf := fun m op src dst hg hf hfit hf' hfit' => ?_)
  rw [Bool.and_eq_true, Bool.and_eq_true, decide_eq_true_eq] at hg
  obtain ⟨⟨hcls, hAn⟩, hdst⟩ := hg
  simp only [Instr.wf, ok_of_field hf hfit (gEa_iff.1 hcls), byteOk_of_field hf fun _ => hAn,
    ok_of_dst hf' hfit' hdst, Bool.and_self]

theorem moveWL {sz : Size} {k : Ea → Ea → Instr} (hp : pat &&& 0xF000#16 = pat := by decide)
    (hwf : ∀ src dst, (k src dst).wf = (src.ok .all sz && dst.ok .dataAlterable sz) := by exact fun _ _ => rfl)
    (hm : ∀ m src dst, (k src dst).onModel m = true := by exact fun _ _ _ => rfl)
    (henc : ∀ src dst, encode (k src dst) = encMove pat.toNat sz src dst := by exact fun _ _ => rfl) :
    Sound ⟨name, pat, 0xF000#16, fun m op => gEa .all m op && EaClass.dataAlterable.admitsField (dstFieldOf op),
      rdMove sz k⟩ := by
  refine move hp (fun m op src dst hg hf hfit hf' hfit' => ?_) hm henc
  obtain ⟨hcls, hdst⟩ := Bool.and_eq_true_iff.1 hg
  rw [hwf, ok_of_field hf hfit (gEa_iff.1 hcls), ok_of_dst hf' hfit' hdst]
  rfl

theorem moveFromCcr :
    Sound ⟨name, 0x42C0#16, 0xFFC0#16, g10 (gEa .dataAlterable), rdEa .w fun _ ea => .moveFromCcr ea⟩ := by
  refine rdSizedEa (k := fun _ _ ea => .moveFromCcr ea) (fun _ => 0x42C0) fun m op ea hs hg hf hfit => ?_
  obtain ⟨h10, hg⟩ := g10_iff.1 hg
  refine ⟨ok_of_field hf hfit (gEa_iff.1 hg), h10, rfl, ?_⟩
  rw [maskFFC0 (by decide)] at hs
  simp [field] at *
  omega

theorem trap :
    Sound ⟨name, 0x4E40#16, 0xFFF0#16, gAll, Sys2Proof.rdOp fun op => .trap (Fin.ofNat 16 (field op 0 4))⟩ := by
  refine rdOp fun m op hs _ => ⟨rfl, rfl, ?_⟩
  rw [maskFFF0 (by decide)] at hs
  rw [encode, wordOf_eq]
  simp [field] at *
  omega

theorem link : Sound ⟨name, 0x4E50#16, 0xFFF8#16, gAll, Sys2Proof.rdWord fun op w => .link (regAt op 0) w⟩ := by
  refine rdWord fun m op w hs _ => ⟨rfl, rfl, w, ?_⟩
  rw [maskFFF8 (by decide)] at hs
  rw [encode, wordOf_eq]
  simp [regAt_val, field] at *
  omega

theorem dbcc :
    Sound ⟨name, 0x50C8#16, 0xF0F8#16, gAll, Sys2Proof.rdWord fun op w => .dbcc (condOf op) (regAt op 0) w⟩ := by
  refine rdWord fun m op w hs _ => ⟨rfl, rfl, w, ?_⟩
  rw [maskF0F8 (by decide)] at hs
  rw [encode, wordOf_eq]
  simp [code_condOf, regAt_val, field] at *
  omega

theorem scc :
    Sound ⟨name, 0x50C0#16, 0xF0C0#16, gEa .dataAlterable, rdEa .b fun op ea => .scc (condOf op) ea⟩ := by
  refine rdSizedEa (k := fun op _ ea => .scc (condOf op) ea) (fun op => 0x50C0 + (condOf op).code * 256)
    fun m op ea hs hg hf hfit => ⟨ok_of_field hf hfit hg, rfl, rfl, ?_⟩
  rw [maskF0C0 (by decide)] at hs
  simp [code_condOf, field] at *
  omega

theorem trapcc :
    Sound ⟨name, 0x50F8#16, 0xF0F8#16, g20 fun op => decide (field op 0 3 = 2 ∨ field op 0 3 = 3 ∨ field op 0 3 = 4),
      Sys2Proof.rdOp fun op => .trapcc (condOf op) (regAt op 0)⟩ := by
  refine rdOp fun m op hs hg => ?_
  obtain ⟨h20, hop⟩ := g20_iff.1 hg
  rw [decide_eq_true_eq] at hop
  refine ⟨decide_eq_true (hop.imp Fin.ext (Or.imp Fin.ext Fin.ext)), h20, ?_⟩
  rw [maskF0F8 (by decide)] at hs
  rw [encode, wordOf_eq]
  simp [code_condOf, regAt_val, field] at *
  omega

theorem moveq : Sound ⟨name, 0x7000#16, 0xF100#16, gAll, Sys2Proof.rdOp fun op => .moveq (regAt op 9) (loByte op)⟩ := by
  refine rdOp fun m op hs _ => ⟨rfl, rfl, ?_⟩
  rw [maskF100 (by decide)] at hs
  rw [encode, wordOf_eq]
  simp [loByte, regAt_val, field] at *
  omega

/-- BRA and BSR. -/
theorem branch {k : BranchDisp → Instr} (hp : pat &&& 0xFF00#16 = pat := by decide)
    (hwf : ∀ d, (k d).wf = d.wf := by exact fun _ => rfl)
    (hm : ∀ m d, (k d).onModel m = !(m.is20 && d.isFF) := by exact fun _ _ => rfl)
    (henc : ∀ d, encode (k d) = encBranch pat.toNat d := by exact fun _ => rfl) :
    Sound ⟨name, pat, 0xFF00#16, gBranch fun _ => true, Sys2Proof.rdBranch fun _ d => k d⟩ := by
  refine rdBranch (fun _ => pat.toNat) (fun op d _ _ h => (hwf d).trans h) (fun m _ d _ _ => hm m d)
    (fun _ d => henc d) fun op hs => ?_
  rw [maskFF00 hp] at hs
  have hz := field_eq_zero hp (lo := 0) (w := 8) (by decide)
  simp only [field] at *
  omega

theorem bcc :
    Sound ⟨name, 0x6000#16, 0xF000#16, gBranch fun op => decide (2 ≤ field op 8 4),
      Sys2Proof.rdBranch fun op d => .bcc (condOf op) d⟩ := by
  refine rdBranch (fun op => 0x6000 + (condOf op).code * 256) (fun op d _ hg h => ?_) (fun _ _ _ _ _ => rfl)
    (fun _ _ => rfl) fun op hs => ?_
  · rw [Instr.wf, isBcc_condOf (of_decide_eq_true hg), h]
    rfl
  · rw [maskF000 (by decide)] at hs
    simp [code_condOf, field] at *
    omega

theorem bccL :
    Sound ⟨name, 0x6000#16, 0xF000#16, g20 fun op => decide (field op 0 8 = 255),
      Sys2Proof.rdOp fun op => .bccL (condOf op)⟩ := by
  refine rdOp fun m op hs hg => ?_
  obtain ⟨h20, hFF⟩ := g20_iff.1 hg
  rw [decide_eq_true_eq] at hFF
  refine ⟨rfl, h20, ?_⟩
  rw [maskF000 (by decide)] at hs
  rw [encode, wordOf_eq]
  simp [code_condOf, field] at *
  omega

theorem chk2Cmp2 :
    Sound ⟨name, 0x00C0#16, 0xF9C0#16, g20 fun op => decide (field op 9 2 ≠ 3) && gEa .control .mc68020 op,
      Sys2Proof.rdOp fun op => .chk2Cmp2 (Fin.ofNat 4 (field op 9 2)) (eaFieldOf op)⟩ := by
  refine rdOp fun m op hs hg => ?_
  obtain ⟨h20, hg⟩ := g20_iff.1 hg
  obtain ⟨hss, hcls⟩ := Bool.and_eq_true_iff.1 hg
  have hss' : Fin.ofNat 4 (field op 9 2) ≠ 3 := fun h =>
    of_decide_eq_true hss (field_size_val.symm.trans (congrArg Fin.val h))
  refine ⟨?_, h20, ?_⟩
  · rw [Instr.wf, decide_eq_true hss']
    exact hcls
  · rw [maskF9C0 (by decide)] at hs
    rw [encode, wordOf_eq]
    rw [field_size_val, eaFieldOf_bits]
    simp [field] at *
    omega

theorem cas :
    Sound ⟨name, 0x08C0#16, 0xF9C0#16, g20 fun op => decide (field op 9 2 ≠ 0) &&
        (gEa .memoryAlterable .mc68020 op || decide (op = 0x0CFC ∨ op = 0x0EFC)),
      Sys2Proof.rdOp fun op => .cas (Fin.ofNat 4 (field op 9 2)) (eaFieldOf op)⟩ := by
  refine rdOp fun m op hs hg => ?_
  obtain ⟨h20, hg⟩ := g20_iff.1 hg
  obtain ⟨hss, hcls⟩ := Bool.and_eq_true_iff.1 hg
  have hss' : Fin.ofNat 4 (field op 9 2) ≠ 0 := fun h =>
    of_decide_eq_true hss (field_size_val.symm.trans (congrArg Fin.val h))
  refine ⟨?_, h20, ?_⟩
  · rw [Instr.wf, decide_eq_true hss', Bool.true_and, Bool.or_eq_true]
    rw [Bool.or_eq_true, decide_eq_true_eq] at hcls
    refine hcls.imp id ?_
    rintro (rfl | rfl) <;> decide
  · rw [maskF9C0 (by decide)] at hs
    rw [encode, wordOf_eq]
    rw [field_size_val, eaFieldOf_bits]
    simp [field] at *
    omega

theorem rtm :
    Sound ⟨name, 0x06C0#16, 0xFFF0#16, g20 fun _ => true, Sys2Proof.rdOp fun op => .rtm (bitAt op 3) (regAt op 0)⟩ := by
  refine rdOp fun m op hs hg => ⟨rfl, (g20_iff.1 hg).1, ?_⟩
  rw [maskFFF0 (by decide)] at hs
  rw [encode, wordOf_eq]
  simp [toNat_bitAt, regAt_val, field] at *
  omega

theorem cmpi20 :
    Sound ⟨name, 0x0C00#16, 0xFF00#16,
      g20 fun op => gSize .mc68020 op && decide (eaFieldOf op = ⟨7, 2⟩ ∨ eaFieldOf op = ⟨7, 3⟩),
      Sys2Proof.rdOp fun op => .cmpi20 (sizeSS op) (eaFieldOf op)⟩ := by
  refine rdOp fun m op hs hg => ?_
  obtain ⟨h20, hg⟩ := g20_iff.1 hg
  obtain ⟨hsize, hea⟩ := Bool.and_eq_true_iff.1 hg
  refine ⟨hea, h20, ?_⟩
  rw [maskFF00 (by decide)] at hs
  rw [encode, wordOf_eq]
  rw [sizeSS_ss (gSize_iff.1 hsize), eaFieldOf_bits]
  simp [field] at *
  omega

theorem tst20 :
    Sound ⟨name, 0x4A00#16, 0xFF00#16,
      g20 fun op => gSize .mc68020 op && (decide (field op 3 3 = 1 ∧ field op 6 2 ≠ 0) ||
        decide (eaFieldOf op = ⟨7, 2⟩ ∨ eaFieldOf op = ⟨7, 3⟩ ∨ eaFieldOf op = ⟨7, 4⟩)),
      Sys2Proof.rdOp fun op => .tst20 (sizeSS op) (eaFieldOf op)⟩ := by
  refine rdOp fun m op hs hg => ?_
  obtain ⟨h20, hg⟩ := g20_iff.1 hg
  obtain ⟨hsize, hea⟩ := Bool.and_eq_true_iff.1 hg
  have hss := sizeSS_ss (gSize_iff.1 hsize)
  refine ⟨?_, h20, ?_⟩
  · rw [Instr.wf, Bool.or_eq_true, decide_eq_true_eq]
    rw [Bool.or_eq_true, decide_eq_true_eq] at hea
    refine hea.imp (fun h => ⟨regAt_eq h.1, fun hb => h.2 ?_⟩) id
    rw [hb, Size.ss] at hss
    omega
  rw [maskFF00 (by decide)] at hs
  rw [encode, wordOf_eq]
  rw [hss, eaFieldOf_bits]
  simp [field] at *
  omega

theorem chkL :
    Sound ⟨name, 0x4100#16, 0xF1C0#16, g20 (gEa .data .mc68020),
      Sys2Proof.rdOp fun op => .chkL (regAt op 9) (eaFieldOf op)⟩ := by
  refine rdOp fun m op hs hg => ?_
  obtain ⟨h20, hcls⟩ := g20_iff.1 hg
  refine ⟨hcls, h20, ?_⟩
  rw [maskF1C0 (by decide)] at hs
  rw [encode, wordOf_eq]
  rw [eaFieldOf_bits]
  simp [regAt_val, field] at *
  omega

theorem bitField :
    Sound ⟨name, 0xE8C0#16, 0xF8C0#16, g20 fun _ => true,
      Sys2Proof.rdOp fun op => .bitField (regAt op 8) (eaFieldOf op)⟩ := by
  refine rdOp fun m op hs hg => ⟨rfl, (g20_iff.1 hg).1, ?_⟩
  rw [maskF8C0 (by decide)] at hs
  rw [encode, wordOf_eq]
  rw [eaFieldOf_bits]
  simp [regAt_val, field] at *
  omega

end

end Row.Sound

/-! ## The rows, line by line -/

open Row.Sound

/-- Every row of the opcode map is sound. -/
theorem rowsOfLine_sound (l : Nat) : ∀ r ∈ rowsOfLine l, r.Sound := by
  unfold rowsOfLine
  split
  all_goals
    simp only [rows0, rows0Refused, rows1, rows2, rows3, rows4a, rows4b, rows4Refused, rows5, rows6, rows7, rows8,
      rows9, rowsA, rowsB, rowsC, rowsD, rowsE, rowsF, List.forall_mem_append, List.forall_mem_cons]
  case h_1 =>
    exact ⟨⟨singleWord, singleWord, immEa, singleWord, singleWord, immEa, immEa, immEa, byteEa, byteEa, byteEa, byteEa,
      singleWord, singleWord, immEa, immEa, moves, reg9Ea, reg9Ea, reg9Ea, reg9Ea, xyWord, xyWord, xyWord, xyWord,
      List.forall_mem_nil _⟩, chk2Cmp2, cas, rtm, eaField, cmpi20, List.forall_mem_nil _⟩
  case h_2 => exact ⟨moveB, List.forall_mem_nil _⟩
  case h_3 | h_4 => exact ⟨moveWL, reg9Ea, List.forall_mem_nil _⟩
  case h_5 =>
    have h10 : ∀ {m : Model} {op : Half} {g : Guard}, g10 g m op = true → m.atLeast10 = true :=
      fun h => (g10_iff.1 h).1
    have h20 : ∀ {m : Model} {op : Half} {g : Half → Bool}, g20 g m op = true → m.is20 = true :=
      fun h => (g20_iff.1 h).1
    exact ⟨⟨ssEa, ea, reg9Ea, reg9Ea, ssEa, moveFromCcr, ssEa, ea, ssEa, ea, ea, reg0, reg0, ea, reg0, reg0, wlWordEa,
        wlWord, List.forall_mem_nil _⟩,
      ⟨ssEa, ea, single, wlWordEa, wlWord, trap, link, reg0, reg0, reg0, single, single, singleWord, single,
        singleWord (hm := fun _ _ _ h => h10 h), single, single, single, singleWord (hm := fun _ _ _ h => h10 h),
        singleWord (hm := fun _ _ _ h => h10 h), ea, ea, List.forall_mem_nil _⟩,
      chkL, reg0 (hm := fun _ _ _ h => h20 h), reg0 (hm := fun _ _ _ h => h20 h), eaField, eaField, tst20,
      List.forall_mem_nil _⟩
  case h_6 => exact ⟨reg9SsEaNoAnB, reg9SsEaNoAnB, dbcc, scc, trapcc, List.forall_mem_nil _⟩
  case h_7 => exact ⟨branch, branch, bcc, bccL, List.forall_mem_nil _⟩
  case h_8 => exact ⟨moveq, List.forall_mem_nil _⟩
  case h_9 => exact ⟨reg9SsEa, reg9SsEa, reg9Ea, reg9Ea, xy, xy, xBitY, xBitY, List.forall_mem_nil _⟩
  case h_10 | h_14 => exact ⟨reg9SsEaNoAnB, reg9SsEa, reg9WlEa, ssXy, ssXy, List.forall_mem_nil _⟩
  case h_11 | h_16 => exact ⟨line, List.forall_mem_nil _⟩
  case h_12 => exact ⟨reg9SsEaNoAnB, reg9WlEa, reg9SsEa, ssXy, List.forall_mem_nil _⟩
  case h_13 => exact ⟨reg9SsEa, reg9SsEa, reg9Ea, reg9Ea, xy, xy, xy, xy, xy, List.forall_mem_nil _⟩
  case h_15 =>
    exact ⟨shReg, shReg, ea, ea, shReg, shReg, ea, ea, shReg, shReg, ea, ea, shReg, shReg, ea, ea, bitField,
      List.forall_mem_nil _⟩

/-- Settles O58: the word read selects a row of its line, and every row is sound. -/
theorem decoderSound : Obligations.DecoderSound := by
  unfold Obligations.DecoderSound
  intro m ws rest i h
  obtain ⟨op, ws, r, rfl, hrow, hread⟩ := decode_eq_ok h
  obtain ⟨hmem, hsel⟩ := rowOf_eq_some_iff.1 hrow
  obtain ⟨hwf, hmodel, tail, henc, htook⟩ := rowsOfLine_sound _ r hmem m op ws i rest hsel hread
  obtain ⟨hdrop, hle⟩ := htook.drop
  rw [henc]
  exact ⟨hwf, hmodel, rfl, hdrop, Nat.succ_le_succ hle⟩

end Sys2Proof
end

section
/-! SUPPORT. The words that the encoder writes select the instruction's row and are read back by it: one lemma for each
format of R114. -/

namespace Sys2Proof

/-- The encoding of an instruction selects the row, which reads it back and leaves the words after it. -/
def Row.Encodes (r : Row) (m : Model) (i : Instr) : Prop :=
  ∃ op ws, encode i = op :: ws ∧ r.selects m op = true ∧ ∀ rest, r.read op (ws ++ rest) = some (i, rest)

/-! ## Fields of a number -/

section
variable {op : Half}

theorem Size.ss_cases (sz : Size) : sz.ss = 0 ∨ sz.ss = 64 ∨ sz.ss = 128 := by cases sz <;> decide

theorem Size.wl_cases {sz : Size} (h : sz.isWL = true) (i : Nat) :
    sz = .w ∧ sz.wl i = 0 ∨ sz = .l ∧ sz.wl i = 2 ^ i := by
  cases sz with
  | b => cases h
  | w => exact .inl ⟨rfl, rfl⟩
  | l => exact .inr ⟨rfl, rfl⟩

theorem sizeSS_eq {sz : Size} (h : field op 6 2 * 64 = sz.ss) : sizeSS op = sz := by
  have h' : field op 6 2 = sz.ss / 64 := by omega
  rw [sizeSS, h']
  cases sz <;> rfl

theorem sizeWL_eq {sz : Size} {i : Nat} (hsz : sz.isWL = true) (h : field op i 1 * 2 ^ i = sz.wl i) :
    sizeWL op i = sz := by
  have hpos : 0 < 2 ^ i := Nat.two_pow_pos i
  have hbit : bitAt op i = decide (field op i 1 = 1) := rfl
  rcases Size.wl_cases hsz i with ⟨rfl, hwl⟩ | ⟨rfl, hwl⟩
  · have h0 : field op i 1 = 0 := (Nat.mul_eq_zero.1 (h.trans hwl)).resolve_right hpos.ne'
    simp [sizeWL, hbit, h0]
  · have h1 : field op i 1 = 1 := Nat.eq_of_mul_eq_mul_right hpos (by rw [h, hwl, Nat.one_mul])
    simp [sizeWL, hbit, h1]

theorem Cond.code_lt (c : Cond) : c.code < 16 := by cases c <;> decide

theorem condOf_eq {c : Cond} (h : field op 8 4 = c.code) : condOf op = c := by
  rw [condOf, h]
  cases c <;> rfl

theorem EaField.bits_lt (f : EaField) : f.bits < 64 := by
  rw [EaField.bits]
  omega

theorem eaFieldOf_eq {f : EaField} (h : field op 0 6 = f.bits) : eaFieldOf op = f := by
  refine (EaField.eq_of_val (f := eaFieldOf op) (m := f.mode) (r := f.reg) ?_ ?_).symm
  · simp only [eaFieldOf, regAt_val, field, EaField.bits] at *
    omega
  · simp only [eaFieldOf, regAt_val, field, EaField.bits] at *
    omega

theorem EaField.dstBits_lt (f : EaField) : f.dstBits < 4096 ∧ f.dstBits % 64 = 0 := by
  rw [EaField.dstBits]
  omega

theorem dstFieldOf_eq {f : EaField} (h : field op 6 6 * 64 = f.dstBits) : dstFieldOf op = f := by
  refine (EaField.eq_of_val (f := dstFieldOf op) (m := f.mode) (r := f.reg) ?_ ?_).symm
  · simp only [dstFieldOf, regAt_val, field, EaField.dstBits] at *
    omega
  · simp only [dstFieldOf, regAt_val, field, EaField.dstBits] at *
    omega

theorem Ea.ok_iff {k : EaClass} {sz : Size} {ea : Ea} :
    ea.ok k sz = true ↔ k.admitsField ea.field = true ∧ ea.immFits sz = true := by
  rw [Ea.ok, Bool.and_eq_true]

theorem admits_of_field {k : EaClass} {ea : Ea} (hf : eaFieldOf op = ea.field) (h : k.admitsField ea.field = true) :
    k.admits (field op 3 3) (field op 0 3) = true := by
  rw [← hf] at h
  exact h

theorem field_of_areg {sz : Size} {ea : Ea} (hf : eaFieldOf op = ea.field) (h : ea.byteOk sz = true) (hsz : sz = .b) :
    field op 3 3 ≠ 1 := by
  have hmode : field op 3 3 = ea.field.mode.val := congrArg (fun f => f.mode.val) hf
  rw [hmode]
  cases ea with
  | areg n => exact absurd hsz (of_decide_eq_true h)
  | _ => simp [Ea.field]

end

/-- The opcode word of an encoding with an effective address. -/
theorem opcode_ea {base : Nat} {ea : Ea} (hbase : base % 64 = 0 ∧ base < 65536) :
    (wordOf (base + ea.field.bits)).toNat = base + ea.field.bits ∧
      eaFieldOf (wordOf (base + ea.field.bits)) = ea.field := by
  have hlt := ea.field.bits_lt
  have hop : (wordOf (base + ea.field.bits)).toNat = base + ea.field.bits := wordOf_toNat (by omega)
  refine ⟨hop, eaFieldOf_eq ?_⟩
  rw [field, hop]
  omega

theorem shiftCountOf_eq {op : Half} {c : ShiftCount} (h : field op 9 3 * 512 + field op 5 1 * 32 = c.bits) :
    shiftCountOf op = c := by
  have hlt : field op 5 1 < 2 := Nat.mod_lt _ (by decide)
  cases c with
  | quick q =>
    rw [ShiftCount.bits] at h
    rw [shiftCountOf, bitAt_eq (b := false) (by simp; omega), regAt_eq (r := q) (by omega)]
    rfl
  | reg q =>
    rw [ShiftCount.bits] at h
    rw [shiftCountOf, bitAt_eq (b := true) (by simp; omega), regAt_eq (r := q) (by omega)]
    rfl

theorem ShiftCount.bits_cases (c : ShiftCount) : ∃ q < 8, c.bits = q * 512 ∨ c.bits = q * 512 + 32 := by
  cases c with
  | quick q => exact ⟨q.val, q.isLt, .inl rfl⟩
  | reg q => exact ⟨q.val, q.isLt, .inr rfl⟩

namespace Row.Encodes

section
variable {name : String} {pat mask : Half} {g : Guard} {m : Model} {i : Instr}

/-! ## What the readers read back -/

theorem rdOp {k : Half → Instr} {n : Nat} (henc : encode i = [wordOf n]) (hn : n < 65536)
    (h : ∀ op : Half, op.toNat = n → op &&& mask = pat ∧ g m op = true ∧ k op = i) :
    Encodes ⟨name, pat, mask, g, Sys2Proof.rdOp k⟩ m i := by
  obtain ⟨hmask, hg, hk⟩ := h _ (wordOf_toNat hn)
  exact ⟨_, _, henc, Row.selects_iff.2 ⟨hmask, hg⟩, fun rest => congrArg (fun i => some (i, rest)) hk⟩

theorem rdWord {k : Half → Half → Instr} {n : Nat} {w : Half} (henc : encode i = [wordOf n, w]) (hn : n < 65536)
    (h : ∀ op : Half, op.toNat = n → op &&& mask = pat ∧ g m op = true ∧ k op w = i) :
    Encodes ⟨name, pat, mask, g, Sys2Proof.rdWord k⟩ m i := by
  obtain ⟨hmask, hg, hk⟩ := h _ (wordOf_toNat hn)
  exact ⟨_, _, henc, Row.selects_iff.2 ⟨hmask, hg⟩, fun rest => congrArg (fun i => some (i, rest)) hk⟩

theorem rdSizedEa {szf : Half → Size} {k : Half → Size → Ea → Instr} {base : Nat} {sz : Size} {ea : Ea}
    (henc : encode i = encEa base [] sz ea) (hbase : base % 64 = 0 ∧ base < 65536) (hfit : ea.immFits sz = true)
    (h : ∀ op : Half, op.toNat = base + ea.field.bits → eaFieldOf op = ea.field →
      op &&& mask = pat ∧ g m op = true ∧ szf op = sz ∧ k op sz ea = i) :
    Encodes ⟨name, pat, mask, g, Sys2Proof.rdSizedEa szf k⟩ m i := by
  obtain ⟨hop, hf⟩ := opcode_ea (ea := ea) hbase
  obtain ⟨hmask, hg, hsz, hk⟩ := h _ hop hf
  refine ⟨_, _, henc, Row.selects_iff.2 ⟨hmask, hg⟩, fun rest => ?_⟩
  simp only [Sys2Proof.rdSizedEa, hf, hsz, List.nil_append, readEa_words hfit, Option.map_some, hk]

theorem rdWordEa {szf : Half → Size} {k : Half → Size → Half → Ea → Instr} {base : Nat} {sz : Size} {w : Half} {ea : Ea}
    (henc : encode i = encEa base [w] sz ea) (hbase : base % 64 = 0 ∧ base < 65536) (hfit : ea.immFits sz = true)
    (h : ∀ op : Half, op.toNat = base + ea.field.bits → eaFieldOf op = ea.field →
      op &&& mask = pat ∧ g m op = true ∧ szf op = sz ∧ k op sz w ea = i) :
    Encodes ⟨name, pat, mask, g, Sys2Proof.rdWordEa szf k⟩ m i := by
  obtain ⟨hop, hf⟩ := opcode_ea (ea := ea) hbase
  obtain ⟨hmask, hg, hsz, hk⟩ := h _ hop hf
  refine ⟨_, _, henc, Row.selects_iff.2 ⟨hmask, hg⟩, fun rest => ?_⟩
  simp only [Sys2Proof.rdWordEa, hf, hsz, List.cons_append, List.nil_append, readWord_cons, Option.bind_some,
    readEa_words hfit, Option.map_some, hk]

end

/-! ## The formats of the opcode map

Each lemma is the converse of the one of its name for `Row.Sound`: the numbers that the encoder adds up are the fields
of the word. -/

section
variable {name : String} {pat : Half} {cls : EaClass} {m : Model} {sz : Size} {n : RegNo} {ea : Ea}

theorem immEa {k : Size → Word → Ea → Instr} {v : Word} (h : (sz.fits v && ea.ok cls sz) = true)
    (hp : pat &&& 0xFF00#16 = pat := by decide)
    (henc : encode (k sz v ea) = encEa (pat.toNat + sz.ss) (immWords sz v) sz ea := by exact rfl) :
    Encodes ⟨name, pat, 0xFF00#16, gSizeEa cls, rdImmEa k⟩ m (k sz v ea) := by
  obtain ⟨hfits, hok⟩ := Bool.and_eq_true_iff.1 h
  obtain ⟨hcls, hfit⟩ := Ea.ok_iff.1 hok
  have hz := field_eq_zero hp (lo := 0) (w := 8) (by decide)
  have hss := sz.ss_cases
  have hlt := ea.field.bits_lt
  obtain ⟨hop, hf⟩ := opcode_ea (ea := ea) (base := pat.toNat + sz.ss) (by simp only [field] at hz; omega)
  have hsize : field (wordOf (pat.toNat + sz.ss + ea.field.bits)) 6 2 * 64 = sz.ss := by
    simp only [field, hop] at *
    omega
  refine ⟨_, _, henc, Row.selects_iff.2 ⟨(maskFF00 hp).2 ?_, gSizeEa_iff.2 ⟨by omega, admits_of_field hf hcls⟩⟩,
    fun rest => ?_⟩
  · simp only [field, hop] at *
    omega
  · simp only [rdImmEa, hf, sizeSS_eq hsize, List.append_assoc, readImm_immWords hfits, Option.bind_some,
      readEa_words hfit, Option.map_some]

theorem byteEa {k : Byte → Ea → Instr} {b : Byte} (h : ea.ok cls .b = true)
    (hp : pat &&& 0xFFC0#16 = pat := by decide)
    (henc : encode (k b ea) = encEa pat.toNat [byteWord b] .b ea := by exact rfl) :
    Encodes ⟨name, pat, 0xFFC0#16, gEa cls, Sys2Proof.rdWordEa (fun _ => .b) fun _ _ w ea => k (loByte w) ea⟩ m
      (k b ea) := by
  obtain ⟨hcls, hfit⟩ := Ea.ok_iff.1 h
  have hz := field_eq_zero hp (lo := 0) (w := 6) (by decide)
  have hlt := ea.field.bits_lt
  refine rdWordEa henc (by simp only [field] at hz; omega) hfit fun op hop hf =>
    ⟨(maskFFC0 hp).2 ?_, admits_of_field hf hcls, rfl, by rw [loByte_byteWord]⟩
  simp only [field] at *
  omega

theorem onlyEa {k : Ea → Instr} (h : ea.ok cls sz = true) (hp : pat &&& 0xFFC0#16 = pat := by decide)
    (henc : encode (k ea) = encEa pat.toNat [] sz ea := by exact rfl) :
    Encodes ⟨name, pat, 0xFFC0#16, gEa cls, rdEa sz fun _ ea => k ea⟩ m (k ea) := by
  obtain ⟨hcls, hfit⟩ := Ea.ok_iff.1 h
  have hz := field_eq_zero hp (lo := 0) (w := 6) (by decide)
  have hlt := ea.field.bits_lt
  refine rdSizedEa (k := fun _ _ ea => k ea) henc (by simp only [field] at hz; omega) hfit fun op hop hf =>
    ⟨(maskFFC0 hp).2 ?_, admits_of_field hf hcls, rfl, rfl⟩
  simp only [field] at *
  omega

theorem reg9Ea {k : RegNo → Ea → Instr} (h : ea.ok cls sz = true) (hp : pat &&& 0xF1C0#16 = pat := by decide)
    (henc : encode (k n ea) = encEa (pat.toNat + n.val * 512) [] sz ea := by exact rfl) :
    Encodes ⟨name, pat, 0xF1C0#16, gEa cls, rdEa sz fun op ea => k (regAt op 9) ea⟩ m (k n ea) := by
  obtain ⟨hcls, hfit⟩ := Ea.ok_iff.1 h
  have hz := field_eq_zero hp (lo := 0) (w := 6) (by decide)
  have hz9 := field_eq_zero hp (lo := 9) (w := 3) (by decide)
  have hlt := ea.field.bits_lt
  refine rdSizedEa (k := fun op _ ea => k (regAt op 9) ea) henc (by simp only [field] at *; omega) hfit fun op hop hf =>
    ⟨(maskF1C0 hp).2 ?_, admits_of_field hf hcls, rfl, by rw [regAt_eq (r := n)]; simp only [field] at *; omega⟩
  simp only [field] at *
  omega

theorem ssEa {k : Size → Ea → Instr} (h : ea.ok cls sz = true) (hp : pat &&& 0xFF00#16 = pat := by decide)
    (henc : encode (k sz ea) = encEa (pat.toNat + sz.ss) [] sz ea := by exact rfl) :
    Encodes ⟨name, pat, 0xFF00#16, gSizeEa cls, Sys2Proof.rdSizedEa sizeSS fun _ sz ea => k sz ea⟩ m (k sz ea) := by
  obtain ⟨hcls, hfit⟩ := Ea.ok_iff.1 h
  have hz := field_eq_zero hp (lo := 0) (w := 8) (by decide)
  have hss := sz.ss_cases
  have hlt := ea.field.bits_lt
  refine rdSizedEa henc (by simp only [field] at hz; omega) hfit fun op hop hf => ?_
  have hsize : field op 6 2 * 64 = sz.ss := by
    simp only [field] at *
    omega
  refine ⟨(maskFF00 hp).2 ?_, gSizeEa_iff.2 ⟨by omega, admits_of_field hf hcls⟩, sizeSS_eq hsize, rfl⟩
  simp only [field] at *
  omega

theorem reg9SsEa {k : Size → RegNo → Ea → Instr} (h : ea.ok cls sz = true)
    (hp : pat &&& 0xF100#16 = pat := by decide)
    (henc : encode (k sz n ea) = encEa (pat.toNat + n.val * 512 + sz.ss) [] sz ea := by exact rfl) :
    Encodes ⟨name, pat, 0xF100#16, gSizeEa cls, Sys2Proof.rdSizedEa sizeSS fun op sz ea => k sz (regAt op 9) ea⟩ m
      (k sz n ea) := by
  obtain ⟨hcls, hfit⟩ := Ea.ok_iff.1 h
  have hz := field_eq_zero hp (lo := 0) (w := 8) (by decide)
  have hz9 := field_eq_zero hp (lo := 9) (w := 3) (by decide)
  have hss := sz.ss_cases
  have hlt := ea.field.bits_lt
  refine rdSizedEa henc (by simp only [field] at *; omega) hfit fun op hop hf => ?_
  have hsize : field op 6 2 * 64 = sz.ss := by
    simp only [field] at *
    omega
  refine ⟨(maskF100 hp).2 ?_, gSizeEa_iff.2 ⟨by omega, admits_of_field hf hcls⟩, sizeSS_eq hsize,
    by rw [regAt_eq (r := n)]; simp only [field] at *; omega⟩
  simp only [field] at *
  omega

theorem reg9SsEaNoAnB {k : Size → RegNo → Ea → Instr} (h : (ea.ok cls sz && ea.byteOk sz) = true)
    (hp : pat &&& 0xF100#16 = pat := by decide)
    (henc : encode (k sz n ea) = encEa (pat.toNat + n.val * 512 + sz.ss) [] sz ea := by exact rfl) :
    Encodes ⟨name, pat, 0xF100#16, gSizeEaNoAnB cls,
      Sys2Proof.rdSizedEa sizeSS fun op sz ea => k sz (regAt op 9) ea⟩ m (k sz n ea) := by
  obtain ⟨hok, hAn⟩ := Bool.and_eq_true_iff.1 h
  obtain ⟨hcls, hfit⟩ := Ea.ok_iff.1 hok
  have hz := field_eq_zero hp (lo := 0) (w := 8) (by decide)
  have hz9 := field_eq_zero hp (lo := 9) (w := 3) (by decide)
  have hss := sz.ss_cases
  have hlt := ea.field.bits_lt
  refine rdSizedEa henc (by simp only [field] at *; omega) hfit fun op hop hf => ?_
  have hsize : field op 6 2 * 64 = sz.ss := by
    simp only [field] at *
    omega
  have hb : field op 6 2 = 0 → sz = .b := fun h0 => by
    rw [← sizeSS_eq hsize, sizeSS, h0]
    rfl
  refine ⟨(maskF100 hp).2 ?_,
    gSizeEaNoAnB_iff.2 ⟨⟨by omega, admits_of_field hf hcls⟩, fun h0 => field_of_areg hf hAn (hb h0.1) h0.2⟩,
    sizeSS_eq hsize, by rw [regAt_eq (r := n)]; simp only [field] at *; omega⟩
  simp only [field] at *
  omega

theorem reg9WlEa {k : Size → RegNo → Ea → Instr} (h : (sz.isWL && ea.ok cls sz) = true)
    (hp : pat &&& 0xF0C0#16 = pat := by decide)
    (henc : encode (k sz n ea) = encEa (pat.toNat + n.val * 512 + sz.wl 8) [] sz ea := by exact rfl) :
    Encodes ⟨name, pat, 0xF0C0#16, gEa cls, Sys2Proof.rdSizedEa (sizeWL · 8) fun op sz ea => k sz (regAt op 9) ea⟩ m
      (k sz n ea) := by
  obtain ⟨hwl, hok⟩ := Bool.and_eq_true_iff.1 h
  obtain ⟨hcls, hfit⟩ := Ea.ok_iff.1 hok
  have hz := field_eq_zero hp (lo := 0) (w := 6) (by decide)
  have hz8 := field_eq_zero hp (lo := 8) (w := 4) (by decide)
  have hsz := Size.wl_cases hwl 8
  have hlt := ea.field.bits_lt
  refine rdSizedEa henc (by simp only [field] at *; omega) hfit fun op hop hf =>
    ⟨(maskF0C0 hp).2 ?_, admits_of_field hf hcls, sizeWL_eq hwl ?_, by
      rw [regAt_eq (r := n)]; simp only [field] at *; omega⟩
  all_goals
    simp only [field] at *
    omega

theorem wlWordEa {k : Size → Half → Ea → Instr} {w : Half} (h : (sz.isWL && ea.ok cls sz) = true)
    (hp : pat &&& 0xFF80#16 = pat := by decide)
    (henc : encode (k sz w ea) = encEa (pat.toNat + sz.wl 6) [w] sz ea := by exact rfl) :
    Encodes ⟨name, pat, 0xFF80#16, gEa cls, Sys2Proof.rdWordEa (sizeWL · 6) fun _ sz w ea => k sz w ea⟩ m
      (k sz w ea) := by
  obtain ⟨hwl, hok⟩ := Bool.and_eq_true_iff.1 h
  obtain ⟨hcls, hfit⟩ := Ea.ok_iff.1 hok
  have hz := field_eq_zero hp (lo := 0) (w := 7) (by decide)
  have hsz := Size.wl_cases hwl 6
  have hlt := ea.field.bits_lt
  refine rdWordEa henc (by simp only [field] at *; omega) hfit fun op hop hf =>
    ⟨(maskFF80 hp).2 ?_, admits_of_field hf hcls, sizeWL_eq hwl ?_, rfl⟩
  all_goals
    simp only [field] at *
    omega

theorem wlWord {k : Size → Half → RegNo → Instr} {w : Half} (h : sz.isWL = true)
    (hp : pat &&& 0xFFB8#16 = pat := by decide)
    (henc : encode (k sz w n) = [wordOf (pat.toNat + sz.wl 6 + n.val), w] := by exact rfl) :
    Encodes ⟨name, pat, 0xFFB8#16, gAll, Sys2Proof.rdWord fun op w => k (sizeWL op 6) w (regAt op 0)⟩ m (k sz w n) := by
  have hz := field_eq_zero hp (lo := 0) (w := 3) (by decide)
  have hz6 := field_eq_zero hp (lo := 6) (w := 1) (by decide)
  have hsz := Size.wl_cases h 6
  refine rdWord henc (by simp only [field] at *; omega) fun op hop => ⟨(maskFFB8 hp).2 ?_, rfl, ?_⟩
  · simp only [field] at *
    omega
  · rw [sizeWL_eq h, regAt_eq (r := n)]
    all_goals
      simp only [field] at *
      omega

theorem reg0 {g : Guard} {k : RegNo → Instr} (hg : ∀ op, g m op = true) (hp : pat &&& 0xFFF8#16 = pat := by decide)
    (henc : encode (k n) = [wordOf (pat.toNat + n.val)] := by exact rfl) :
    Encodes ⟨name, pat, 0xFFF8#16, g, Sys2Proof.rdOp fun op => k (regAt op 0)⟩ m (k n) := by
  have hz := field_eq_zero hp (lo := 0) (w := 3) (by decide)
  refine rdOp henc (by simp only [field] at *; omega) fun op hop =>
    ⟨(maskFFF8 hp).2 ?_, hg op, by rw [regAt_eq (r := n)]; simp only [field] at *; omega⟩
  simp only [field] at *
  omega

variable {x y : RegNo}

theorem xy {k : RegNo → RegNo → Instr} (hp : pat &&& 0xF1F8#16 = pat := by decide)
    (henc : encode (k x y) = encXY pat.toNat x y := by exact rfl) :
    Encodes ⟨name, pat, 0xF1F8#16, gAll, Sys2Proof.rdOp fun op => k (regAt op 9) (regAt op 0)⟩ m (k x y) := by
  have hz := field_eq_zero hp (lo := 0) (w := 3) (by decide)
  have hz9 := field_eq_zero hp (lo := 9) (w := 3) (by decide)
  refine rdOp henc (by simp only [field] at *; omega) fun op hop => ⟨(maskF1F8 hp).2 ?_, rfl, ?_⟩
  · simp only [field] at *
    omega
  · rw [regAt_eq (r := x), regAt_eq (r := y)]
    all_goals
      simp only [field] at *
      omega

theorem xyWord {k : RegNo → RegNo → Half → Instr} {w : Half} (hp : pat &&& 0xF1F8#16 = pat := by decide)
    (henc : encode (k x y w) = encXY pat.toNat x y ++ [w] := by exact rfl) :
    Encodes ⟨name, pat, 0xF1F8#16, gAll, Sys2Proof.rdWord fun op w => k (regAt op 9) (regAt op 0) w⟩ m (k x y w) := by
  have hz := field_eq_zero hp (lo := 0) (w := 3) (by decide)
  have hz9 := field_eq_zero hp (lo := 9) (w := 3) (by decide)
  refine rdWord henc (by simp only [field] at *; omega) fun op hop => ⟨(maskF1F8 hp).2 ?_, rfl, ?_⟩
  · simp only [field] at *
    omega
  · rw [regAt_eq (r := x), regAt_eq (r := y)]
    all_goals
      simp only [field] at *
      omega

theorem ssXy {k : Size → RegNo → RegNo → Instr} (hp : pat &&& 0xF138#16 = pat := by decide)
    (henc : encode (k sz x y) = encXY (pat.toNat + sz.ss) x y := by exact rfl) :
    Encodes ⟨name, pat, 0xF138#16, gSize, Sys2Proof.rdOp fun op => k (sizeSS op) (regAt op 9) (regAt op 0)⟩ m
      (k sz x y) := by
  have hz := field_eq_zero hp (lo := 0) (w := 3) (by decide)
  have hz6 := field_eq_zero hp (lo := 6) (w := 2) (by decide)
  have hz9 := field_eq_zero hp (lo := 9) (w := 3) (by decide)
  have hss := sz.ss_cases
  refine rdOp henc (by simp only [field] at *; omega) fun op hop => ?_
  have hsize : field op 6 2 * 64 = sz.ss := by
    simp only [field] at *
    omega
  refine ⟨(maskF138 hp).2 ?_, gSize_iff.2 (by omega), ?_⟩
  · simp only [field] at *
    omega
  · rw [sizeSS_eq hsize, regAt_eq (r := x), regAt_eq (r := y)]
    all_goals
      simp only [field] at *
      omega

theorem xBitY {k : RegNo → Bool → RegNo → Instr} {b : Bool} (h20 : m.is20 = true)
    (hp : pat &&& 0xF1F0#16 = pat := by decide)
    (henc : encode (k x b y) = [wordOf (pat.toNat + x.val * 512 + b.toNat * 8 + y.val)] := by exact rfl) :
    Encodes ⟨name, pat, 0xF1F0#16, g20 fun _ => true,
      Sys2Proof.rdOp fun op => k (regAt op 9) (bitAt op 3) (regAt op 0)⟩ m (k x b y) := by
  have hz := field_eq_zero hp (lo := 0) (w := 4) (by decide)
  have hz9 := field_eq_zero hp (lo := 9) (w := 3) (by decide)
  have hb := b.toNat_lt
  refine rdOp henc (by simp only [field] at *; omega) fun op hop => ⟨(maskF1F0 hp).2 ?_, g20_iff.2 ⟨h20, rfl⟩, ?_⟩
  · simp only [field] at *
    omega
  · rw [bitAt_eq (b := b), regAt_eq (r := x), regAt_eq (r := y)]
    all_goals
      simp only [field] at *
      omega

theorem shReg {k : Size → ShiftCount → RegNo → Instr} {c : ShiftCount} (hp : pat &&& 0xF118#16 = pat := by decide)
    (henc : encode (k sz c n) = [wordOf (pat.toNat + c.bits + sz.ss + n.val)] := by exact rfl) :
    Encodes ⟨name, pat, 0xF118#16, gSize, rdShReg k⟩ m (k sz c n) := by
  have hz := field_eq_zero hp (lo := 0) (w := 3) (by decide)
  have hz5 := field_eq_zero hp (lo := 5) (w := 3) (by decide)
  have hz9 := field_eq_zero hp (lo := 9) (w := 3) (by decide)
  have hss := sz.ss_cases
  obtain ⟨q, hq, hc⟩ := ShiftCount.bits_cases c
  refine rdOp henc (by simp only [field] at *; omega) fun op hop => ?_
  have hsize : field op 6 2 * 64 = sz.ss := by
    simp only [field] at *
    omega
  refine ⟨(maskF118 hp).2 ?_, gSize_iff.2 (by omega), ?_⟩
  · simp only [field] at *
    omega
  · rw [sizeSS_eq hsize, shiftCountOf_eq (c := c), regAt_eq (r := n)]
    all_goals
      simp only [field] at *
      omega

theorem line {k : BitVec 12 → Instr} {v : BitVec 12} (hp : pat &&& 0xF000#16 = pat := by decide)
    (henc : encode (k v) = [wordOf (pat.toNat + v.toNat)] := by exact rfl) :
    Encodes ⟨name, pat, 0xF000#16, gAll, Sys2Proof.rdOp fun op => k (BitVec.ofNat 12 op.toNat)⟩ m (k v) := by
  have hz := field_eq_zero hp (lo := 0) (w := 12) (by decide)
  refine rdOp henc (by simp only [field] at *; omega) fun op hop => ⟨(maskF000 hp).2 ?_, rfl, congrArg k ?_⟩
  · simp only [field] at *
    omega
  · refine BitVec.eq_of_toNat_eq ?_
    simp only [BitVec.toNat_ofNat, field] at *
    omega

theorem selects_self {g : Guard} {rd : Reader} (hg : g m pat = true) :
    Row.selects m pat ⟨name, pat, 0xFFFF#16, g, rd⟩ = true :=
  Row.selects_iff.2 ⟨BitVec.and_allOnes, hg⟩

theorem single {i : Instr} (henc : encode i = [pat] := by exact rfl) :
    Encodes ⟨name, pat, 0xFFFF#16, gAll, Sys2Proof.rdOp fun _ => i⟩ m i :=
  ⟨_, _, henc, selects_self rfl, fun _ => rfl⟩

theorem singleWord {g : Guard} {k : Half → Instr} {i : Instr} {w : Half} (hk : k w = i) (hg : g m pat = true)
    (henc : encode i = [pat, w] := by exact rfl) :
    Encodes ⟨name, pat, 0xFFFF#16, g, Sys2Proof.rdWord fun _ w => k w⟩ m i :=
  ⟨_, _, henc, selects_self hg, fun rest => congrArg (fun i => some (i, rest)) hk⟩

theorem eaField {k : EaField → Instr} {f : EaField} (h20 : m.is20 = true) (h : cls.admitsField f = true)
    (hp : pat &&& 0xFFC0#16 = pat := by decide)
    (henc : encode (k f) = [wordOf (pat.toNat + f.bits)] := by exact rfl) :
    Encodes ⟨name, pat, 0xFFC0#16, g20 (gEa cls .mc68020), Sys2Proof.rdOp fun op => k (eaFieldOf op)⟩ m (k f) := by
  have hz := field_eq_zero hp (lo := 0) (w := 6) (by decide)
  have hlt := f.bits_lt
  refine rdOp henc (by simp only [field] at *; omega) fun op hop => ?_
  have hf : eaFieldOf op = f := eaFieldOf_eq (by simp only [field] at *; omega)
  refine ⟨(maskFFC0 hp).2 ?_, g20_iff.2 ⟨h20, ?_⟩, by rw [hf]⟩
  · simp only [field] at *
    omega
  · rw [← hf] at h
    exact h

theorem move {g : Guard} {k : Ea → Ea → Instr} {src dst : Ea} (hsrc : src.immFits sz = true)
    (hdst : dst.immFits sz = true)
    (hg : ∀ op, eaFieldOf op = src.field → dstFieldOf op = dst.field → g m op = true)
    (hp : pat &&& 0xF000#16 = pat := by decide)
    (henc : encode (k src dst) = encMove pat.toNat sz src dst := by exact rfl) :
    Encodes ⟨name, pat, 0xF000#16, g, rdMove sz k⟩ m (k src dst) := by
  have hz := field_eq_zero hp (lo := 0) (w := 12) (by decide)
  have hdlt := dst.field.dstBits_lt
  obtain ⟨hop, hf⟩ := opcode_ea (ea := src) (base := pat.toNat + dst.field.dstBits) (by simp only [field] at *; omega)
  have hlt := src.field.bits_lt
  have hf' : dstFieldOf (wordOf (pat.toNat + dst.field.dstBits + src.field.bits)) = dst.field :=
    dstFieldOf_eq (by simp only [field, hop] at *; omega)
  refine ⟨_, _, henc, Row.selects_iff.2 ⟨(maskF000 hp).2 ?_, hg _ hf hf'⟩, fun rest => ?_⟩
  · simp only [field, hop] at *
    omega
  · simp only [rdMove, hf, hf', List.append_assoc, readEa_words hsrc, Option.bind_some, readEa_words hdst,
      Option.map_some]

end

end Row.Encodes

end Sys2Proof
end

section
/-! SUPPORT. The rows with a format of their own, the row of every instruction, and the round trip of the decoder. -/

namespace Sys2Proof

theorem gregOf_eq {op : Half} {r : GReg} (h : field op 12 4 * 4096 = r.bits) : gregOf op = r := by
  cases r with
  | d q =>
    rw [GReg.bits] at h
    rw [gregOf, bitAt_eq (b := false) (by simp only [field, Bool.toNat_false] at *; omega),
      regAt_eq (r := q) (by simp only [field] at *; omega)]
    rfl
  | a q =>
    rw [GReg.bits] at h
    rw [gregOf, bitAt_eq (b := true) (by simp only [field, Bool.toNat_true] at *; omega),
      regAt_eq (r := q) (by simp only [field] at *; omega)]
    rfl

theorem GReg.bits_cases (r : GReg) : ∃ q < 16, r.bits = q * 4096 := by
  cases r with
  | d q => exact ⟨q.val, by omega, rfl⟩
  | a q => exact ⟨8 + q.val, by omega, by rw [GReg.bits]; omega⟩

/-- The word of MOVEC holds its register and its control register code. -/
theorem movec_word {r : GReg} {code : BitVec 12} :
    gregOf (wordOf (r.bits + code.toNat)) = r ∧ BitVec.ofNat 12 (wordOf (r.bits + code.toNat)).toNat = code := by
  obtain ⟨q, hq, hr⟩ := GReg.bits_cases r
  have hn : (wordOf (r.bits + code.toNat)).toNat = r.bits + code.toNat := wordOf_toNat (by omega)
  refine ⟨gregOf_eq (by rw [field, hn]; omega), BitVec.eq_of_toNat_eq ?_⟩
  rw [hn, BitVec.toNat_ofNat]
  omega

/-- The word of MOVES holds its register and its direction. -/
theorem moves_word {r : GReg} {toMem : Bool} :
    bitAt (wordOf (r.bits + toMem.toNat * 2048)) 11 = toMem ∧ gregOf (wordOf (r.bits + toMem.toNat * 2048)) = r := by
  obtain ⟨q, hq, hr⟩ := GReg.bits_cases r
  have hb := toMem.toNat_lt
  have hn : (wordOf (r.bits + toMem.toNat * 2048)).toNat = r.bits + toMem.toNat * 2048 := wordOf_toNat (by omega)
  exact ⟨bitAt_eq (by rw [field, hn]; omega), gregOf_eq (by rw [field, hn]; omega)⟩

theorem admits_of_dst {op : Half} {k : EaClass} {ea : Ea} (hf : dstFieldOf op = ea.field)
    (h : k.admitsField ea.field = true) : k.admitsField (dstFieldOf op) = true := hf ▸ h

theorem Cond.two_le_code {c : Cond} (h : c.isBcc = true) : 2 ≤ c.code := by
  cases c
  case t | f => cases h
  all_goals simp [Cond.code]

theorem field_size_eq {op : Half} {ss : Fin 4} (h : field op 9 2 = ss.val) : Fin.ofNat 4 (field op 9 2) = ss := by
  rw [h]
  exact Fin.ext (Nat.mod_eq_of_lt ss.isLt)

namespace Row.Encodes

section
variable {name : String} {m : Model} {sz : Size} {n : RegNo} {ea : Ea} {c : Cond}

/-! ## Rows with a format of their own -/

theorem moves {toMem : Bool} {r : GReg} (h10 : m.atLeast10 = true) (h : ea.ok .memoryAlterable sz = true) :
    Encodes ⟨name, 0x0E00#16, 0xFF00#16, g10 (gSizeEa .memoryAlterable),
      Sys2Proof.rdWordEa sizeSS fun _ sz w ea => .moves sz (bitAt w 11) (gregOf w) ea⟩ m (.moves sz toMem r ea) := by
  obtain ⟨hcls, hfit⟩ := Ea.ok_iff.1 h
  have hss := sz.ss_cases
  have hlt := ea.field.bits_lt
  refine rdWordEa rfl (by omega) hfit fun op hop hf => ?_
  have hsize : field op 6 2 * 64 = sz.ss := by
    simp only [field] at *
    omega
  refine ⟨(maskFF00 (by decide)).2 ?_, g10_iff.2 ⟨h10, gSizeEa_iff.2 ⟨by omega, admits_of_field hf hcls⟩⟩,
    sizeSS_eq hsize, by rw [moves_word.1, moves_word.2]⟩
  simp [field] at *
  omega

theorem moveFromCcr (h10 : m.atLeast10 = true) (h : ea.ok .dataAlterable .w = true) :
    Encodes ⟨name, 0x42C0#16, 0xFFC0#16, g10 (gEa .dataAlterable), rdEa .w fun _ ea => .moveFromCcr ea⟩ m
      (.moveFromCcr ea) := by
  obtain ⟨hcls, hfit⟩ := Ea.ok_iff.1 h
  have hlt := ea.field.bits_lt
  refine rdSizedEa (k := fun _ _ ea => .moveFromCcr ea) rfl (by decide) hfit fun op hop hf =>
    ⟨(maskFFC0 (by decide)).2 ?_, g10_iff.2 ⟨h10, admits_of_field hf hcls⟩, rfl, rfl⟩
  simp [field] at *
  omega

theorem moveB {src dst : Ea} (h : (src.ok .all .b && src.byteOk .b && dst.ok .dataAlterable .b) = true) :
    Encodes ⟨name, 0x1000#16, 0xF000#16,
      fun m op => gEa .all m op && decide (field op 3 3 ≠ 1) && EaClass.dataAlterable.admitsField (dstFieldOf op),
      rdMove .b .moveB⟩ m (.moveB src dst) := by
  simp only [Bool.and_eq_true, Ea.ok_iff] at h
  obtain ⟨⟨⟨hcls, hfit⟩, hAn⟩, hcls', hfit'⟩ := h
  refine move hfit hfit' fun op hf hf' => ?_
  rw [Bool.and_eq_true, Bool.and_eq_true, decide_eq_true_eq]
  exact ⟨⟨admits_of_field hf hcls, field_of_areg hf hAn rfl⟩, admits_of_dst hf' hcls'⟩

theorem moveWL {k : Ea → Ea → Instr} {src dst : Ea} {pat : Half}
    (h : (src.ok .all sz && dst.ok .dataAlterable sz) = true) (hp : pat &&& 0xF000#16 = pat := by decide)
    (henc : encode (k src dst) = encMove pat.toNat sz src dst := by exact rfl) :
    Encodes ⟨name, pat, 0xF000#16, fun m op => gEa .all m op && EaClass.dataAlterable.admitsField (dstFieldOf op),
      rdMove sz k⟩ m (k src dst) := by
  simp only [Bool.and_eq_true, Ea.ok_iff] at h
  obtain ⟨⟨hcls, hfit⟩, hcls', hfit'⟩ := h
  exact move hfit hfit' (fun op hf hf' => Bool.and_eq_true_iff.2 ⟨admits_of_field hf hcls, admits_of_dst hf' hcls'⟩)
    hp henc

theorem trap {v : Fin 16} :
    Encodes ⟨name, 0x4E40#16, 0xFFF0#16, gAll, Sys2Proof.rdOp fun op => .trap (Fin.ofNat 16 (field op 0 4))⟩ m
      (.trap v) := by
  refine rdOp rfl (by omega) fun op hop => ⟨(maskFFF0 (by decide)).2 ?_, rfl, congrArg Instr.trap (Fin.ext ?_)⟩
  all_goals
    simp [field] at *
    omega

theorem link {w : Half} :
    Encodes ⟨name, 0x4E50#16, 0xFFF8#16, gAll, Sys2Proof.rdWord fun op w => .link (regAt op 0) w⟩ m (.link n w) := by
  refine rdWord rfl (by omega) fun op hop => ⟨(maskFFF8 (by decide)).2 ?_, rfl, by
    rw [regAt_eq (r := n)]; simp only [field] at *; omega⟩
  simp [field] at *
  omega

theorem dbcc {w : Half} :
    Encodes ⟨name, 0x50C8#16, 0xF0F8#16, gAll, Sys2Proof.rdWord fun op w => .dbcc (condOf op) (regAt op 0) w⟩ m
      (.dbcc c n w) := by
  have hc := c.code_lt
  refine rdWord rfl (by omega) fun op hop => ⟨(maskF0F8 (by decide)).2 ?_, rfl, ?_⟩
  · simp [field] at *
    omega
  · rw [condOf_eq (c := c), regAt_eq (r := n)]
    all_goals
      simp only [field] at *
      omega

theorem scc (h : ea.ok .dataAlterable .b = true) :
    Encodes ⟨name, 0x50C0#16, 0xF0C0#16, gEa .dataAlterable, rdEa .b fun op ea => .scc (condOf op) ea⟩ m
      (.scc c ea) := by
  obtain ⟨hcls, hfit⟩ := Ea.ok_iff.1 h
  have hc := c.code_lt
  have hlt := ea.field.bits_lt
  refine rdSizedEa (k := fun op _ ea => .scc (condOf op) ea) rfl (by omega) hfit fun op hop hf =>
    ⟨(maskF0C0 (by decide)).2 ?_, admits_of_field hf hcls, rfl, by
      rw [condOf_eq (c := c)]; simp only [field] at *; omega⟩
  simp [field] at *
  omega

theorem trapcc (h20 : m.is20 = true) (h : decide (n = 2 ∨ n = 3 ∨ n = 4) = true) :
    Encodes ⟨name, 0x50F8#16, 0xF0F8#16,
      g20 fun op => decide (field op 0 3 = 2 ∨ field op 0 3 = 3 ∨ field op 0 3 = 4),
      Sys2Proof.rdOp fun op => .trapcc (condOf op) (regAt op 0)⟩ m (.trapcc c n) := by
  have hc := c.code_lt
  refine rdOp rfl (by omega) fun op hop => ?_
  have hn : field op 0 3 = n.val := by
    simp only [field] at *
    omega
  refine ⟨(maskF0F8 (by decide)).2 ?_, g20_iff.2 ⟨h20, ?_⟩, ?_⟩
  · simp [field] at *
    omega
  · rw [hn]
    simpa [Fin.ext_iff] using h
  · rw [condOf_eq (c := c), regAt_eq hn]
    simp only [field] at *
    omega

theorem moveq {b : Byte} :
    Encodes ⟨name, 0x7000#16, 0xF100#16, gAll, Sys2Proof.rdOp fun op => .moveq (regAt op 9) (loByte op)⟩ m
      (.moveq n b) := by
  refine rdOp rfl (by omega) fun op hop => ?_
  have hb : loByte op = b := BitVec.eq_of_toNat_eq (by rw [loByte, BitVec.toNat_ofNat]; omega)
  refine ⟨(maskF100 (by decide)).2 ?_, rfl, by rw [hb, regAt_eq (r := n)]; simp only [field] at *; omega⟩
  simp [field] at *
  omega

/-- The word of a branch reads its displacement back. -/
theorem rdBranch {pat mask : Half} {g : Half → Bool} {k : Half → BranchDisp → Instr} {i : Instr} {d : BranchDisp}
    {base : Nat} (hwf : d.wf = true) (hm : (!(m.is20 && d.isFF)) = true) (henc : encode i = encBranch base d)
    (hbase : base % 256 = 0 ∧ base < 65536)
    (h : ∀ op : Half, base ≤ op.toNat → op.toNat < base + 256 → op &&& mask = pat ∧ g op = true ∧ k op d = i) :
    Encodes ⟨name, pat, mask, gBranch g, Sys2Proof.rdBranch k⟩ m i := by
  cases d with
  | word w =>
    have hop := wordOf_toNat hbase.2
    obtain ⟨hmask, hg, hk⟩ := h _ hop.ge (by omega)
    have h0 : field (wordOf base) 0 8 = 0 := by rw [field, hop]; omega
    refine ⟨_, _, henc, Row.selects_iff.2 ⟨hmask, gBranch_iff.2 ⟨hg, fun _ => by omega⟩⟩, fun rest => ?_⟩
    simp only [Sys2Proof.rdBranch, h0, if_true, List.cons_append, List.nil_append, readWord_cons, Option.map_some, hk]
  | short b =>
    have hop : (wordOf (base + b.toNat)).toNat = base + b.toNat := wordOf_toNat (by omega)
    obtain ⟨hmask, hg, hk⟩ := h (wordOf (base + b.toNat)) (by omega) (by omega)
    have hfield : field (wordOf (base + b.toNat)) 0 8 = b.toNat := by rw [field, hop]; omega
    have hb : loByte (wordOf (base + b.toNat)) = b :=
      BitVec.eq_of_toNat_eq (by rw [loByte, BitVec.toNat_ofNat, hop]; omega)
    have h0 : field (wordOf (base + b.toNat)) 0 8 ≠ 0 := fun h0 =>
      of_decide_eq_true hwf (BitVec.eq_of_toNat_eq (hfield.symm.trans h0))
    refine ⟨_, _, henc, Row.selects_iff.2 ⟨hmask, gBranch_iff.2 ⟨hg, fun h20 hFF => ?_⟩⟩, fun rest => ?_⟩
    · have : b = 0xFF := BitVec.eq_of_toNat_eq (hfield.symm.trans hFF)
      simp [h20, BranchDisp.isFF, this] at hm
    · simp only [Sys2Proof.rdBranch, h0, if_false, hb, hk, List.nil_append]

theorem branch {pat : Half} {k : BranchDisp → Instr} {d : BranchDisp} (hm : (!(m.is20 && d.isFF)) = true)
    (hwf : d.wf = true) (hp : pat &&& 0xFF00#16 = pat := by decide)
    (henc : encode (k d) = encBranch pat.toNat d := by exact rfl) :
    Encodes ⟨name, pat, 0xFF00#16, gBranch fun _ => true, Sys2Proof.rdBranch fun _ d => k d⟩ m (k d) := by
  have hz := field_eq_zero hp (lo := 0) (w := 8) (by decide)
  refine rdBranch hwf hm henc (by simp only [field] at *; omega) fun op hle hlt => ⟨(maskFF00 hp).2 ?_, rfl, rfl⟩
  simp only [field] at *
  omega

theorem bcc {d : BranchDisp} (hm : (!(m.is20 && d.isFF)) = true) (h : (c.isBcc && d.wf) = true) :
    Encodes ⟨name, 0x6000#16, 0xF000#16, gBranch fun op => decide (2 ≤ field op 8 4),
      Sys2Proof.rdBranch fun op d => .bcc (condOf op) d⟩ m (.bcc c d) := by
  obtain ⟨hbcc, hwf⟩ := Bool.and_eq_true_iff.1 h
  have hc := c.code_lt
  have h2 := Cond.two_le_code hbcc
  refine rdBranch hwf hm rfl (by omega) fun op hle hlt => ?_
  have hcode : field op 8 4 = c.code := by
    simp only [field] at *
    omega
  refine ⟨(maskF000 (by decide)).2 ?_, decide_eq_true (by omega), by rw [condOf_eq hcode]⟩
  simp [field] at *
  omega

theorem bccL (h20 : m.is20 = true) :
    Encodes ⟨name, 0x6000#16, 0xF000#16, g20 fun op => decide (field op 0 8 = 255),
      Sys2Proof.rdOp fun op => .bccL (condOf op)⟩ m (.bccL c) := by
  have hc := c.code_lt
  refine rdOp rfl (by omega) fun op hop =>
    ⟨(maskF000 (by decide)).2 ?_, g20_iff.2 ⟨h20, decide_eq_true ?_⟩, by
      rw [condOf_eq (c := c)]; simp only [field] at *; omega⟩
  all_goals
    simp [field] at *
    omega

theorem chk2Cmp2 {ss : Fin 4} {f : EaField} (h20 : m.is20 = true)
    (h : (decide (ss ≠ 3) && EaClass.control.admitsField f) = true) :
    Encodes ⟨name, 0x00C0#16, 0xF9C0#16, g20 fun op => decide (field op 9 2 ≠ 3) && gEa .control .mc68020 op,
      Sys2Proof.rdOp fun op => .chk2Cmp2 (Fin.ofNat 4 (field op 9 2)) (eaFieldOf op)⟩ m (.chk2Cmp2 ss f) := by
  obtain ⟨hss, hcls⟩ := Bool.and_eq_true_iff.1 h
  have hlt := f.bits_lt
  refine rdOp rfl (by omega) fun op hop => ?_
  have hf : eaFieldOf op = f := eaFieldOf_eq (by simp only [field] at *; omega)
  have hval : field op 9 2 = ss.val := by
    simp only [field] at *
    omega
  refine ⟨(maskF9C0 (by decide)).2 ?_, g20_iff.2 ⟨h20, Bool.and_eq_true_iff.2 ⟨?_, ?_⟩⟩, by rw [field_size_eq hval, hf]⟩
  · simp [field] at *
    omega
  · exact decide_eq_true fun h3 => of_decide_eq_true hss (Fin.ext (hval.symm.trans h3))
  · rw [← hf] at hcls
    exact hcls

theorem cas {ss : Fin 4} {f : EaField} (h20 : m.is20 = true)
    (h : (decide (ss ≠ 0) && (EaClass.memoryAlterable.admitsField f || decide (ss ≠ 1 ∧ f = ⟨7, 4⟩))) = true) :
    Encodes ⟨name, 0x08C0#16, 0xF9C0#16, g20 fun op => decide (field op 9 2 ≠ 0) &&
        (gEa .memoryAlterable .mc68020 op || decide (op = 0x0CFC ∨ op = 0x0EFC)),
      Sys2Proof.rdOp fun op => .cas (Fin.ofNat 4 (field op 9 2)) (eaFieldOf op)⟩ m (.cas ss f) := by
  obtain ⟨hss, hcls⟩ := Bool.and_eq_true_iff.1 h
  rw [decide_eq_true_eq] at hss
  have hlt := f.bits_lt
  refine rdOp rfl (by omega) fun op hop => ?_
  have hf : eaFieldOf op = f := eaFieldOf_eq (by simp only [field] at *; omega)
  have hval : field op 9 2 = ss.val := by
    simp only [field] at *
    omega
  refine ⟨(maskF9C0 (by decide)).2 ?_, g20_iff.2 ⟨h20, Bool.and_eq_true_iff.2 ⟨?_, ?_⟩⟩, by rw [field_size_eq hval, hf]⟩
  · simp [field] at *
    omega
  · exact decide_eq_true fun h0 => hss (Fin.ext (hval.symm.trans h0))
  · rw [Bool.or_eq_true, decide_eq_true_eq] at hcls ⊢
    refine hcls.imp (fun hcls => ?_) fun ⟨h1, hf74⟩ => ?_
    · rw [← hf] at hcls
      exact hcls
    · have h1 : ss.val ≠ 1 := fun h => h1 (Fin.ext h)
      have h0 : ss.val ≠ 0 := fun h => hss (Fin.ext h)
      have hbits : f.bits = 60 := by rw [hf74]; rfl
      rcases (by omega : ss.val = 2 ∨ ss.val = 3) with h2 | h3
      · exact .inl (BitVec.eq_of_toNat_eq (hop.trans (by rw [h2, hbits]; rfl)))
      · exact .inr (BitVec.eq_of_toNat_eq (hop.trans (by rw [h3, hbits]; rfl)))

theorem rtm {b : Bool} (h20 : m.is20 = true) :
    Encodes ⟨name, 0x06C0#16, 0xFFF0#16, g20 fun _ => true, Sys2Proof.rdOp fun op => .rtm (bitAt op 3) (regAt op 0)⟩ m
      (.rtm b n) := by
  have hb := b.toNat_lt
  refine rdOp rfl (by omega) fun op hop => ⟨(maskFFF0 (by decide)).2 ?_, g20_iff.2 ⟨h20, rfl⟩, ?_⟩
  · simp [field] at *
    omega
  · rw [bitAt_eq (b := b), regAt_eq (r := n)]
    all_goals
      simp only [field] at *
      omega

theorem cmpi20 {f : EaField} (h20 : m.is20 = true) (h : decide (f = ⟨7, 2⟩ ∨ f = ⟨7, 3⟩) = true) :
    Encodes ⟨name, 0x0C00#16, 0xFF00#16,
      g20 fun op => gSize .mc68020 op && decide (eaFieldOf op = ⟨7, 2⟩ ∨ eaFieldOf op = ⟨7, 3⟩),
      Sys2Proof.rdOp fun op => .cmpi20 (sizeSS op) (eaFieldOf op)⟩ m (.cmpi20 sz f) := by
  have hss := sz.ss_cases
  have hlt := f.bits_lt
  refine rdOp rfl (by omega) fun op hop => ?_
  have hf : eaFieldOf op = f := eaFieldOf_eq (by simp only [field] at *; omega)
  have hsize : field op 6 2 * 64 = sz.ss := by
    simp only [field] at *
    omega
  refine ⟨(maskFF00 (by decide)).2 ?_, g20_iff.2 ⟨h20, Bool.and_eq_true_iff.2 ⟨gSize_iff.2 (by omega), ?_⟩⟩,
    by rw [sizeSS_eq hsize, hf]⟩
  · simp [field] at *
    omega
  · rw [hf]
    exact h

theorem tst20 {f : EaField} (h20 : m.is20 = true)
    (h : (decide (f.mode = 1 ∧ sz ≠ .b) || decide (f = ⟨7, 2⟩ ∨ f = ⟨7, 3⟩ ∨ f = ⟨7, 4⟩)) = true) :
    Encodes ⟨name, 0x4A00#16, 0xFF00#16,
      g20 fun op => gSize .mc68020 op && (decide (field op 3 3 = 1 ∧ field op 6 2 ≠ 0) ||
        decide (eaFieldOf op = ⟨7, 2⟩ ∨ eaFieldOf op = ⟨7, 3⟩ ∨ eaFieldOf op = ⟨7, 4⟩)),
      Sys2Proof.rdOp fun op => .tst20 (sizeSS op) (eaFieldOf op)⟩ m (.tst20 sz f) := by
  have hss := sz.ss_cases
  have hlt := f.bits_lt
  refine rdOp rfl (by omega) fun op hop => ?_
  have hf : eaFieldOf op = f := eaFieldOf_eq (by simp only [field] at *; omega)
  have hsize : field op 6 2 * 64 = sz.ss := by
    simp only [field] at *
    omega
  refine ⟨(maskFF00 (by decide)).2 ?_, g20_iff.2 ⟨h20, Bool.and_eq_true_iff.2 ⟨gSize_iff.2 (by omega), ?_⟩⟩,
    by rw [sizeSS_eq hsize, hf]⟩
  · simp [field] at *
    omega
  · rw [hf, Bool.or_eq_true, decide_eq_true_eq]
    rw [Bool.or_eq_true, decide_eq_true_eq] at h
    refine h.imp (fun ⟨hmode, hb⟩ => ⟨?_, fun h0 => hb ?_⟩) id
    · have : field op 3 3 = f.mode.val := congrArg (fun f => f.mode.val) hf
      rw [this, hmode]
      rfl
    · rw [← sizeSS_eq hsize, sizeSS, h0]
      rfl

theorem chkL {f : EaField} (h20 : m.is20 = true) (h : EaClass.data.admitsField f = true) :
    Encodes ⟨name, 0x4100#16, 0xF1C0#16, g20 (gEa .data .mc68020),
      Sys2Proof.rdOp fun op => .chkL (regAt op 9) (eaFieldOf op)⟩ m (.chkL n f) := by
  have hlt := f.bits_lt
  refine rdOp rfl (by omega) fun op hop => ?_
  have hf : eaFieldOf op = f := eaFieldOf_eq (by simp only [field] at *; omega)
  refine ⟨(maskF1C0 (by decide)).2 ?_, g20_iff.2 ⟨h20, ?_⟩, by
    rw [hf, regAt_eq (r := n)]; simp only [field] at *; omega⟩
  · simp [field] at *
    omega
  · rw [← hf] at h
    exact h

theorem bitField {f : EaField} (h20 : m.is20 = true) :
    Encodes ⟨name, 0xE8C0#16, 0xF8C0#16, g20 fun _ => true,
      Sys2Proof.rdOp fun op => .bitField (regAt op 8) (eaFieldOf op)⟩ m (.bitField n f) := by
  have hlt := f.bits_lt
  refine rdOp rfl (by omega) fun op hop => ?_
  have hf : eaFieldOf op = f := eaFieldOf_eq (by simp only [field] at *; omega)
  refine ⟨(maskF8C0 (by decide)).2 ?_, g20_iff.2 ⟨h20, rfl⟩, by
    rw [hf, regAt_eq (r := n)]; simp only [field] at *; omega⟩
  simp [field] at *
  omega

end

end Row.Encodes

/-! ## The row of every instruction -/

/-- Where the row of an instruction stands: its line, and its place among the rows of the line. -/
def Instr.place : Instr → Nat × Nat
  | .oriCcr .. => (0, 0) | .oriSr .. => (0, 1) | .ori .. => (0, 2) | .andiCcr .. => (0, 3) | .andiSr .. => (0, 4)
  | .andi .. => (0, 5) | .subi .. => (0, 6) | .addi .. => (0, 7) | .btstI .. => (0, 8) | .bchgI .. => (0, 9)
  | .bclrI .. => (0, 10) | .bsetI .. => (0, 11) | .eoriCcr .. => (0, 12) | .eoriSr .. => (0, 13)
  | .eori .. => (0, 14) | .cmpi .. => (0, 15) | .moves .. => (0, 16) | .btstD .. => (0, 17) | .bchgD .. => (0, 18)
  | .bclrD .. => (0, 19) | .bsetD .. => (0, 20) | .movepLoadW .. => (0, 21) | .movepLoadL .. => (0, 22)
  | .movepStoreW .. => (0, 23) | .movepStoreL .. => (0, 24) | .moveB .. => (1, 0) | .moveL .. => (2, 0)
  | .moveW .. => (3, 0) | .moveaL .. => (2, 1) | .moveaW .. => (3, 1) | .negx .. => (4, 0) | .moveFromSr .. => (4, 1)
  | .chk .. => (4, 2) | .lea .. => (4, 3) | .clr .. => (4, 4) | .moveFromCcr .. => (4, 5) | .neg .. => (4, 6)
  | .moveToCcr .. => (4, 7) | .notEa .. => (4, 8) | .moveToSr .. => (4, 9) | .nbcd .. => (4, 10)
  | .swap .. => (4, 11) | .bkpt .. => (4, 12) | .pea .. => (4, 13) | .extW .. => (4, 14) | .extL .. => (4, 15)
  | .movemToMem .. => (4, 16) | .movemToPredec .. => (4, 17) | .tst .. => (4, 18) | .tas .. => (4, 19)
  | .illegal => (4, 20) | .movemFromMem .. => (4, 21) | .movemFromPostinc .. => (4, 22) | .trap .. => (4, 23)
  | .link .. => (4, 24) | .unlk .. => (4, 25) | .moveToUsp .. => (4, 26) | .moveFromUsp .. => (4, 27)
  | .reset => (4, 28) | .nop => (4, 29) | .stop .. => (4, 30) | .rte => (4, 31) | .rtd .. => (4, 32)
  | .rts => (4, 33) | .trapv => (4, 34) | .rtr => (4, 35) | .movecFrom .. => (4, 36) | .movecTo .. => (4, 37)
  | .jsr .. => (4, 38) | .jmp .. => (4, 39) | .addq .. => (5, 0) | .subq .. => (5, 1) | .dbcc .. => (5, 2)
  | .scc .. => (5, 3) | .bra .. => (6, 0) | .bsr .. => (6, 1) | .bcc .. => (6, 2) | .moveq .. => (7, 0)
  | .orToReg .. => (8, 0) | .orToMem .. => (8, 1) | .divu .. => (8, 2) | .divs .. => (8, 3) | .sbcdReg .. => (8, 4)
  | .sbcdMem .. => (8, 5) | .subToReg .. => (9, 0) | .subToMem .. => (9, 1) | .suba .. => (9, 2)
  | .subxReg .. => (9, 3) | .subxMem .. => (9, 4) | .lineA .. => (10, 0) | .cmp .. => (11, 0) | .cmpa .. => (11, 1)
  | .eor .. => (11, 2) | .cmpm .. => (11, 3) | .andToReg .. => (12, 0) | .andToMem .. => (12, 1)
  | .mulu .. => (12, 2) | .muls .. => (12, 3) | .abcdReg .. => (12, 4) | .abcdMem .. => (12, 5)
  | .exgDD .. => (12, 6) | .exgAA .. => (12, 7) | .exgDA .. => (12, 8) | .addToReg .. => (13, 0)
  | .addToMem .. => (13, 1) | .adda .. => (13, 2) | .addxReg .. => (13, 3) | .addxMem .. => (13, 4)
  | .asrReg .. => (14, 0) | .aslReg .. => (14, 1) | .asrMem .. => (14, 2) | .aslMem .. => (14, 3)
  | .lsrReg .. => (14, 4) | .lslReg .. => (14, 5) | .lsrMem .. => (14, 6) | .lslMem .. => (14, 7)
  | .roxrReg .. => (14, 8) | .roxlReg .. => (14, 9) | .roxrMem .. => (14, 10) | .roxlMem .. => (14, 11)
  | .rorReg .. => (14, 12) | .rolReg .. => (14, 13) | .rorMem .. => (14, 14) | .rolMem .. => (14, 15)
  | .lineF .. => (15, 0) | .chk2Cmp2 .. => (0, 25) | .cas .. => (0, 26) | .rtm .. => (0, 27) | .callm .. => (0, 28)
  | .chkL .. => (4, 40) | .linkL .. => (4, 41) | .extbL .. => (4, 42) | .mulL .. => (4, 43) | .divL .. => (4, 44)
  | .trapcc .. => (5, 4) | .pack .. => (8, 6) | .unpk .. => (8, 7) | .bitField .. => (14, 16) | .tst20 .. => (4, 45)
  | .cmpi20 .. => (0, 29) | .bccL .. => (6, 3)

theorem Instr.place_lt (i : Instr) : i.place.1 < 16 := by cases i <;> simp [Instr.place]

open Row.Encodes in
/-- The row of an instruction encodes it. -/
theorem encodes_place {m : Model} {i : Instr} (hwf : i.wf = true) (hmodel : i.onModel m = true) :
    ∃ r, (rowsOfLine i.place.1)[i.place.2]? = some r ∧ r.Encodes m i := by
  cases i
  case oriCcr | andiCcr | eoriCcr => exact ⟨_, rfl, singleWord (by rw [loByte_byteWord]) rfl⟩
  case oriSr | andiSr | eoriSr | stop => exact ⟨_, rfl, singleWord rfl rfl⟩
  case rtd => exact ⟨_, rfl, singleWord rfl (g10_iff.2 ⟨hmodel, rfl⟩)⟩
  case movecFrom | movecTo => exact ⟨_, rfl, singleWord (by rw [movec_word.1, movec_word.2]) (g10_iff.2 ⟨hmodel, rfl⟩)⟩
  case illegal | reset | nop | rte | rts | trapv | rtr => exact ⟨_, rfl, single⟩
  case ori | andi | subi | addi | eori | cmpi => exact ⟨_, rfl, immEa hwf⟩
  case btstI | bchgI | bclrI | bsetI => exact ⟨_, rfl, byteEa hwf⟩
  case moves => exact ⟨_, rfl, moves hmodel hwf⟩
  case btstD | bchgD | bclrD | bsetD | moveaL | moveaW | chk | lea | divu | divs | mulu | muls =>
    exact ⟨_, rfl, reg9Ea hwf⟩
  case movepLoadW | movepLoadL | movepStoreW | movepStoreL => exact ⟨_, rfl, xyWord⟩
  case moveB => exact ⟨_, rfl, moveB hwf⟩
  case moveL | moveW => exact ⟨_, rfl, moveWL hwf⟩
  case negx | clr | neg | notEa | tst => exact ⟨_, rfl, ssEa hwf⟩
  case moveFromCcr => exact ⟨_, rfl, moveFromCcr hmodel hwf⟩
  case moveFromSr | moveToCcr | moveToSr | nbcd | pea | tas | jsr | jmp | asrMem | aslMem | lsrMem | lslMem | roxrMem |
      roxlMem | rorMem | rolMem => exact ⟨_, rfl, onlyEa hwf⟩
  case swap | bkpt | extW | extL | unlk | moveToUsp | moveFromUsp => exact ⟨_, rfl, reg0 fun _ => rfl⟩
  case linkL | extbL => exact ⟨_, rfl, reg0 fun _ => g20_iff.2 ⟨hmodel, rfl⟩⟩
  case movemToMem | movemFromMem => exact ⟨_, rfl, wlWordEa hwf⟩
  case movemToPredec | movemFromPostinc => exact ⟨_, rfl, wlWord hwf⟩
  case trap => exact ⟨_, rfl, trap⟩
  case link => exact ⟨_, rfl, link⟩
  case addq | subq | subToReg | cmp | addToReg => exact ⟨_, rfl, reg9SsEaNoAnB hwf⟩
  case orToReg | orToMem | subToMem | eor | andToReg | andToMem | addToMem => exact ⟨_, rfl, reg9SsEa hwf⟩
  case suba | cmpa | adda => exact ⟨_, rfl, reg9WlEa hwf⟩
  case sbcdReg | sbcdMem | abcdReg | abcdMem | exgDD | exgAA | exgDA => exact ⟨_, rfl, xy⟩
  case subxReg | subxMem | cmpm | addxReg | addxMem => exact ⟨_, rfl, ssXy⟩
  case dbcc => exact ⟨_, rfl, dbcc⟩
  case scc => exact ⟨_, rfl, scc hwf⟩
  case bra | bsr => exact ⟨_, rfl, branch hmodel hwf⟩
  case bcc => exact ⟨_, rfl, bcc hmodel hwf⟩
  case moveq => exact ⟨_, rfl, moveq⟩
  case lineA | lineF => exact ⟨_, rfl, line⟩
  case asrReg | aslReg | lsrReg | lslReg | roxrReg | roxlReg | rorReg | rolReg => exact ⟨_, rfl, shReg⟩
  case chk2Cmp2 => exact ⟨_, rfl, chk2Cmp2 hmodel hwf⟩
  case cas => exact ⟨_, rfl, cas hmodel hwf⟩
  case rtm => exact ⟨_, rfl, rtm hmodel⟩
  case callm | mulL | divL => exact ⟨_, rfl, eaField hmodel hwf⟩
  case chkL => exact ⟨_, rfl, chkL hmodel hwf⟩
  case trapcc => exact ⟨_, rfl, trapcc hmodel hwf⟩
  case pack | unpk => exact ⟨_, rfl, xBitY hmodel⟩
  case bitField => exact ⟨_, rfl, bitField hmodel⟩
  case tst20 => exact ⟨_, rfl, tst20 hmodel hwf⟩
  case cmpi20 => exact ⟨_, rfl, cmpi20 hmodel hwf⟩
  case bccL => exact ⟨_, rfl, bccL hmodel⟩

/-! ## The round trip -/

/-- The rows of a line have its number in bits 15:12, which every mask holds. -/
theorem line_of_pattern :
    ∀ l < 16, ∀ r ∈ rowsOfLine l, r.mask &&& 0xF000#16 = 0xF000#16 ∧ field r.pattern 12 4 = l := by
  decide

theorem line_of_selects {m : Model} {op : Half} {l : Nat} {r : Row} (hl : l < 16) (hr : r ∈ rowsOfLine l)
    (hs : r.selects m op = true) : field op 12 4 = l := by
  obtain ⟨hmask, hline⟩ := line_of_pattern l hl r hr
  have hop : op &&& 0xF000#16 = r.pattern &&& 0xF000#16 := by
    rw [← (Row.selects_iff.1 hs).1, BitVec.and_assoc, hmask]
  have hp : r.pattern &&& 0xF000#16 &&& 0xF000#16 = r.pattern &&& 0xF000#16 := by
    rw [BitVec.and_assoc, BitVec.and_self]
  have h1 := (maskF000 (op := op) (p := r.pattern &&& 0xF000#16) hp).1 hop
  have h2 := (maskF000 (op := r.pattern) (p := r.pattern &&& 0xF000#16) hp).1 rfl
  rw [h1, ← h2, hline]

/-- Settles O57: the encoding selects the row of the instruction, which no other row can shadow, and that row reads it
back. -/
theorem decodeEncode : Obligations.DecodeEncode := by
  unfold Obligations.DecodeEncode
  intro m i rest hwf hmodel
  obtain ⟨r, hr, op, ws, henc, hsel, hread⟩ := encodes_place hwf hmodel
  have hmem := List.mem_of_getElem? hr
  have hline := line_of_selects i.place_lt hmem hsel
  rw [henc]
  exact decode_of_row (rowOf_eq_some_iff.2 ⟨hline.symm ▸ hmem, hsel⟩) (hread rest)

end Sys2Proof
end

section
/-! SUPPORT. A step on the words of an encoded instruction (R100, R104, R116). -/

namespace Sys2Proof.Machine

/-- An encoding has at most five words (R100). -/
theorem encode_length_le (i : Instr) : (encode i).length ≤ 5 := by
  cases i
  case moveB | moveL | moveW => exact (Laws.EncodeLength.encMove_length ..).2
  case bra | bsr | bcc => exact (Laws.EncodeLength.encBranch_length ..).2
  case ori | andi | subi | addi | eori | cmpi =>
    exact (Laws.EncodeLength.encEa_length _ _ _ _ (Laws.EncodeLength.immWords_length ..)).2
  all_goals simp [encode, encXY]
  all_goals exact (Laws.EncodeLength.encEa_length _ _ _ _ (by simp)).2

/-- The words stand in plain memory of program space from `pc` on. -/
def State.Shows (t : State) (ws : List Half) : Prop :=
  ∀ k w, ws[k]? = some w → t.fetchable (t.pc + BitVec.ofNat 32 (2 * k)) = true ∧
    t.fetchWordAt (t.pc + BitVec.ofNat 32 (2 * k)) = .ok w

namespace State.Shows

variable {t u : State} {vs ws : List Half}

theorem canFetch (h : t.Shows ws) : t.canFetch ws.length = true :=
  State.canFetch_iff.2 fun k hk => (h k ws[k] (List.getElem?_eq_getElem hk)).1

theorem left (h : t.Shows (vs ++ ws)) : t.Shows vs := fun k w hk =>
  h k w (by rw [List.getElem?_append_left (List.getElem?_eq_some_iff.1 hk).1, hk])

theorem right (h : t.Shows (vs ++ ws)) : (t.skip vs.length).Shows ws := fun k w hk => by
  have := h (vs.length + k) w (by rw [List.getElem?_append_right (by omega), Nat.add_sub_cancel_left, hk])
  rwa [Nat.mul_add, BitVec.ofNat_add, ← BitVec.add_assoc] at this

/-- What a fetch from plain memory gives depends on memory, the parameters and the status register alone. -/
theorem congr (h : t.Shows ws) (hmem : u.mem = t.mem) (hcfg : u.cfg = t.cfg) (hsr : u.sr = t.sr) (hpc : u.pc = t.pc) :
    u.Shows ws := fun k w hk => by
  obtain ⟨hf, hw⟩ := h k w hk
  have hfc : u.progFC = t.progFC := by rw [State.progFC, State.progFC, State.supervisor, State.supervisor, hsr]
  have hf' : u.fetchable (u.pc + BitVec.ofNat 32 (2 * k)) = true := by
    rw [State.fetchable, hcfg, hfc, hpc]
    exact hf
  refine ⟨hf', ?_⟩
  rw [State.fetchWordAt_ok hf] at hw
  rw [State.fetchWordAt_ok hf', ← hw, hpc, hfc]
  simp only [State.bytesAt, State.byteAt, hmem, hcfg]

/-- The words shown to the decoder are those that stand there. -/
theorem peek (h : t.Shows ws) : t.peek ws.length = ws := by
  induction ws generalizing t with
  | nil => rfl
  | cons w ws ih =>
    obtain ⟨hf, hw⟩ := h 0 w rfl
    simp only [Nat.mul_zero, BitVec.add_zero] at hf hw
    rw [State.fetchWordAt_ok hf] at hw
    have htail : (t.skip 1).Shows ws := right (vs := [w]) h
    rw [List.length_cons, State.peek_succ hf, Except.ok.inj hw, ih htail]

/-- Further words follow them. -/
theorem peek_le (h : t.Shows ws) {n : Nat} (hn : ws.length ≤ n) : ∃ more, t.peek n = ws ++ more := by
  obtain ⟨k, rfl⟩ := Nat.exists_eq_add_of_le hn
  exact ⟨_, by rw [State.peek_add h.canFetch, h.peek]⟩

end State.Shows

/-- The words of MOVE: those of its source, then those of its destination (R101). -/
theorem encode_of_moveSource {i : Instr} {sz : Size} {src : Ea} (h : moveSource i = some (sz, src)) :
    ∃ w dst, encode i = w :: (src.words sz ++ dst) := by
  cases i <;> cases h <;> exact ⟨_, _, rfl⟩

/-- With the words of an instruction in the opcode register and after `pc`, the decoder is shown them. -/
theorem fetched_of_shows {s : State} {i : Instr} {ws : List Half} (hwf : i.wf = true)
    (hmodel : i.onModel s.cfg.model = true) (henc : encode i = s.opcode :: ws) (h : s.started.Shows ws) :
    ∃ rest, s.fetched = .ok (i, rest) := by
  have hlen : ws.length ≤ 4 := by
    have := encode_length_le i
    rw [henc, List.length_cons] at this
    omega
  have hdecode : ∀ more, decode s.cfg.model (s.opcode :: (ws ++ more)) = .ok (i, more) := fun more => by
    have := decodeEncode s.cfg.model i more hwf hmodel
    rwa [henc] at this
  obtain ⟨more, hmore⟩ := h.peek_le hlen
  have hfirst := hdecode more
  rw [← hmore] at hfirst
  unfold State.fetched State.instrWords
  simp only [hfirst]
  cases hmove : moveSource i with
  | none => exact ⟨more, hfirst⟩
  | some p =>
    obtain ⟨sz, src⟩ := p
    obtain ⟨w, dst, henc'⟩ := encode_of_moveSource hmove
    obtain ⟨-, hws⟩ := List.cons.inj (henc.symm.trans henc')
    subst hws
    have hn : (src.words sz).length = eaWordCount sz src := words_length sz src
    obtain ⟨hmem, hcfg, hsr, hpc⟩ := State.afterSource_code (hn ▸ h.left.canFetch)
    have hdst : (s.started.afterSource sz src).Shows dst := h.right.congr hmem hcfg hsr (by rw [hn]; exact hpc)
    rw [List.length_append, hn] at hlen
    obtain ⟨more', hmore'⟩ := hdst.peek_le (n := 4 - eaWordCount sz src) (by omega)
    refine ⟨more', ?_⟩
    have := hdecode more'
    dsimp only
    rwa [hmore', ← hn, h.left.peek, ← List.append_assoc]

/-- Settles O48: the decoder is shown the encoded words, and reads the instruction back from them. -/
theorem stepRunsEncoded : Obligations.StepRunsEncoded := by
  unfold Obligations.StepRunsEncoded
  intro s i w ws hwf hmodel hrun htraced henc hop hws
  have hshows : s.started.Shows ws := fun k w hk => by
    have := hws (w, k) (List.mk_mem_zipIdx_iff_getElem?.2 hk)
    rw [Nat.mul_add, Nat.add_comm, BitVec.ofNat_add, ← BitVec.add_assoc] at this
    exact this
  obtain ⟨rest, hf⟩ := fetched_of_shows hwf hmodel (hop ▸ henc) hshows
  exact step_of_fetched hrun htraced hf

end Sys2Proof.Machine
end

section
/-! SUPPORT. `CalcEA` by how many extension words a mode has (R151 to R163): its answer when they can be fetched, when
one of them cannot (R104), and when mc68020 refuses the brief word (R108). -/

namespace Sys2Proof.Machine

/-! ## Fetching one word or two (R104) -/

theorem State.canFetch_one {s : State} (h : s.fetchable s.pc = true) : s.canFetch 1 = true := by
  simpa [State.canFetch] using h

theorem State.canFetch_two {s : State} (h : s.fetchable s.pc = true) (h' : s.fetchable (s.pc + 2) = true) :
    s.canFetch 2 = true :=
  State.canFetch_iff.2 fun k hk => by
    obtain rfl | rfl : k = 0 ∨ k = 1 := by omega
    · simpa using h
    · exact h'

/-- The state in which a fetch that fails leaves the rule: its call is made and its free value counted. -/
def State.failedFetch (s : State) : State :=
  { s.afterFetch s.pc with draws := (s.afterFetch s.pc).draws + 1 }

/-- Fetching `n` words ends at the first that fails, with `pc` at that word. -/
theorem takeExt_error {s : State} {e : Exc} {m n : Nat} (hmn : m < n) (hm : s.canFetch m = true)
    (he : s.fetchWordAt (s.skip m).pc = .error e) : takeExt n s = .error (.fetch e) (s.skip m).failedFetch := by
  induction m generalizing s n with
  | zero =>
    obtain ⟨n, rfl⟩ := Nat.exists_eq_succ_of_ne_zero hmn.ne'
    rw [State.skip_zero] at he ⊢
    exact bind_error (fetchExt_error he)
  | succ m ih =>
    obtain ⟨n, rfl⟩ := Nat.exists_eq_succ_of_ne_zero (Nat.ne_zero_of_lt hmn)
    obtain ⟨hfirst, hrest⟩ := State.canFetch_succ hm
    have hskip : (s.skip 1).skip m = s.skip (m + 1) := by rw [State.skip_skip, Nat.add_comm]
    have hih := ih (Nat.lt_of_succ_lt_succ hmn) hrest (by rw [hskip]; exact he)
    rw [hskip] at hih
    exact (bind_ok (fetchExt_ok hfirst)).trans hih

/-! ## `CalcEA` -/

section
variable {s : State} {ea : Ea} {sz : Size} {e : Exc}

theorem eaWordCount_imm_of_ne_long (h : sz ≠ .l) (v : Word) : eaWordCount sz (.imm v) = 1 := if_neg h

theorem eaWordCount_imm_pos (sz : Size) (v : Word) : 0 < eaWordCount sz (.imm v) := by
  cases sz <;> exact Nat.succ_pos _

/-- Only modes with an extension word have a brief word. -/
theorem refusedBrief_of_no_words (h : eaWordCount sz ea = 0) : refusedBrief ea = false := by
  cases ea with
  | index n x | pcIndex x => cases h
  | _ => rfl

theorem State.eaReady_of_canFetch (hf : s.canFetch (eaWordCount sz ea) = true)
    (hb : (s.cfg.model.is20 && refusedBrief ea) = false) : s.eaReady ea sz = true := by
  rw [State.eaReady, hf, hb]; rfl

theorem calcEA_no_words (h : eaWordCount sz ea = 0) :
    calcEA ea sz s = .ok (s.eaLoc ea sz) (s.sideEffect ea sz) := by
  have hready : s.eaReady ea sz = true :=
    State.eaReady_of_canFetch (by rw [h]; rfl) (by rw [refusedBrief_of_no_words h, Bool.and_false])
  rw [calcEA_ok hready, State.afterEA, h, State.skip_zero]

theorem calcEA_one_word (h : eaWordCount sz ea = 1) (hf : s.fetchable s.pc = true)
    (hb : (s.cfg.model.is20 && refusedBrief ea) = false) :
    calcEA ea sz s = .ok (s.eaLoc ea sz) ((s.skip 1).sideEffect ea sz) := by
  rw [calcEA_ok (State.eaReady_of_canFetch (h ▸ State.canFetch_one hf) hb), State.afterEA, h]

theorem calcEA_two_words (h : eaWordCount sz ea = 2) (hf : s.fetchable s.pc = true)
    (hf' : s.fetchable (s.pc + 2) = true) (hb : (s.cfg.model.is20 && refusedBrief ea) = false) :
    calcEA ea sz s = .ok (s.eaLoc ea sz) ((s.skip 2).sideEffect ea sz) := by
  rw [calcEA_ok (State.eaReady_of_canFetch (h ▸ State.canFetch_two hf hf') hb), State.afterEA, h]

/-- The brief word is refused after it is fetched (R108, R158). -/
theorem calcEA_refused (h : eaWordCount sz ea = 1) (hf : s.fetchable s.pc = true)
    (hb : (s.cfg.model.is20 && refusedBrief ea) = true) :
    calcEA ea sz s = .error (.refuse .extensionWord68020) (s.skip 1) := by
  have hcheck : checkBrief ea (s.skip 1) = .error (.refuse .extensionWord68020) (s.skip 1) := if_pos hb
  simp only [calcEA, readPC_bind, h]
  rw [bind_ok (takeExt_ok (State.canFetch_one hf)), bind_error hcheck]

/-- A fetch that fails ends the computation, whichever word it is. -/
theorem calcEA_fetch_error {m : Nat} (hlt : m < eaWordCount sz ea) (hm : s.canFetch m = true)
    (he : s.fetchWordAt (s.skip m).pc = .error e) :
    calcEA ea sz s = .error (.fetch e) (s.skip m).failedFetch := by
  simp only [calcEA, readPC_bind]
  exact bind_error (takeExt_error hlt hm he)

theorem calcEA_first_word_fails (h : 0 < eaWordCount sz ea) (he : s.fetchWordAt s.pc = .error e) :
    calcEA ea sz s = .error (.fetch e) s.failedFetch := by
  have := calcEA_fetch_error h rfl (by rw [State.skip_zero]; exact he)
  rwa [State.skip_zero] at this

theorem calcEA_second_word_fails (h : 1 < eaWordCount sz ea) (hf : s.fetchable s.pc = true)
    (he : s.fetchWordAt (s.pc + 2) = .error e) :
    calcEA ea sz s = .error (.fetch e) (s.skip 1).failedFetch :=
  calcEA_fetch_error h (State.canFetch_one hf) he

end

/-! ## The brief word (R108, R158) -/

/-- A brief word with a scale or with bit 8 set is refused on mc68020; both indexed modes check it alike. -/
theorem refusedBrief_index_iff {n : RegNo} {x : Brief} :
    refusedBrief (.index n x) = true ↔ x.scale ≠ 0 ∨ x.full = true := by
  simp [refusedBrief]

theorem brief_accepted {m : Model} {n : RegNo} {x : Brief} (h : m ≠ .mc68020 ∨ (x.scale = 0 ∧ x.full = false)) :
    (m.is20 && refusedBrief (.index n x)) = false := by
  rw [Bool.eq_false_iff, Ne, Bool.and_eq_true, Model.is20_iff, refusedBrief_index_iff]
  rintro ⟨hm, hx⟩
  obtain h | ⟨hs, hf⟩ := h
  · exact h hm
  · simp [hs, hf] at hx

theorem brief_refused {m : Model} {n : RegNo} {x : Brief} (hm : m = .mc68020) (hx : x.scale ≠ 0 ∨ x.full = true) :
    (m.is20 && refusedBrief (.index n x)) = true :=
  Bool.and_eq_true_iff.2 ⟨Model.is20_iff.2 hm, refusedBrief_index_iff.2 hx⟩

/-- Settles O6: each mode by the number of its extension words. -/
theorem addressingModes : Obligations.AddressingModes := by
  unfold Obligations.AddressingModes
  intro s sz n d x l
  refine ⟨calcEA_no_words rfl, calcEA_no_words rfl, calcEA_no_words rfl, calcEA_no_words rfl, calcEA_no_words rfl,
    fun hf => ⟨?disp, ?absW, ?pcDisp, fun h => ?accepted, fun hm hx => ?refused⟩, fun hf hf' => ?absL,
    fun hf hsz => ?immWord, fun hf hf' hsz => ?immLong, fun e hf he => ⟨?absLSecond, fun hsz => ?immSecond⟩,
    fun e he => ?first⟩
  case disp | absW | pcDisp => exact calcEA_one_word rfl hf (Bool.and_false _)
  case accepted =>
    exact ⟨calcEA_one_word rfl hf (brief_accepted h), calcEA_one_word rfl hf (brief_accepted (n := n) h)⟩
  case refused =>
    exact ⟨calcEA_refused rfl hf (brief_refused hm hx), calcEA_refused rfl hf (brief_refused (n := n) hm hx)⟩
  case absL => exact calcEA_two_words rfl hf hf' (Bool.and_false _)
  case immWord => exact calcEA_one_word (eaWordCount_imm_of_ne_long hsz l) hf (Bool.and_false _)
  case immLong => subst hsz; exact calcEA_two_words rfl hf hf' (Bool.and_false _)
  case absLSecond => exact calcEA_second_word_fails Nat.one_lt_two hf he
  case immSecond => subst hsz; exact calcEA_second_word_fails Nat.one_lt_two hf he
  case first =>
    have fails {ea : Ea} (h : 0 < eaWordCount sz ea) := calcEA_first_word_fails h he
    exact ⟨fails Nat.one_pos, fails Nat.one_pos, fails Nat.one_pos, fails Nat.two_pos, fails Nat.one_pos,
      fails Nat.one_pos, fails (eaWordCount_imm_pos sz l)⟩

end Sys2Proof.Machine
end

section
/-! SUPPORT. Addition and subtraction at an operand size (R181 to R185) and the conditions after a compare (R197): a
word by its sign bit, the exact law of the carry and of the overflow of an addition with a carry in, and a subtraction
as the addition it undoes. -/

namespace Sys2Proof

/-! ## Values of an operand size (R11, R12) -/

theorem Size.two_pow_bits (sz : Size) : 2 ^ sz.bits = 2 * 2 ^ (sz.bits - 1) := by cases sz <;> rfl

theorem Size.two_pow_bits_dvd (sz : Size) : 2 ^ sz.bits ∣ 2 ^ 32 := by cases sz <;> decide

theorem Size.fits_iff {sz : Size} {v : Word} : sz.fits v = true ↔ v.toNat < 2 ^ sz.bits := decide_eq_true_iff

@[simp] theorem Size.fits_zero (sz : Size) : sz.fits 0 = true := Size.fits_iff.2 (Nat.two_pow_pos _)

theorem Size.toNat_trunc (sz : Size) (v : Word) : (sz.trunc v).toNat = v.toNat % 2 ^ sz.bits := by
  cases sz with
  | b => exact (BitVec.toNat_and ..).trans (Nat.and_two_pow_sub_one_eq_mod _ 8)
  | w => exact (BitVec.toNat_and ..).trans (Nat.and_two_pow_sub_one_eq_mod _ 16)
  | l => exact (Nat.mod_eq_of_lt v.isLt).symm

@[simp] theorem Size.fits_trunc (sz : Size) (v : Word) : sz.fits (sz.trunc v) = true :=
  Size.fits_iff.2 (Size.toNat_trunc sz v ▸ Nat.mod_lt _ (Nat.two_pow_pos _))

theorem Size.trunc_of_fits {sz : Size} {v : Word} (h : sz.fits v = true) : sz.trunc v = v :=
  BitVec.eq_of_toNat_eq ((Size.toNat_trunc sz v).trans (Nat.mod_eq_of_lt (Size.fits_iff.1 h)))

theorem Size.toNat_trunc_add (sz : Size) (u v : Word) :
    (sz.trunc (u + v)).toNat = (u.toNat + v.toNat) % 2 ^ sz.bits := by
  rw [Size.toNat_trunc, BitVec.toNat_add, Nat.mod_mod_of_dvd _ sz.two_pow_bits_dvd]

theorem Size.toNat_trunc_add_add (sz : Size) (u v c : Word) :
    (sz.trunc (u + v + c)).toNat = (u.toNat + v.toNat + c.toNat) % 2 ^ sz.bits := by
  rw [Size.toNat_trunc_add, Nat.add_mod, BitVec.toNat_add, Nat.mod_mod_of_dvd _ sz.two_pow_bits_dvd, ← Nat.add_mod]

theorem Size.trunc_trunc_add (sz : Size) (u v : Word) : sz.trunc (sz.trunc u + v) = sz.trunc (u + v) :=
  BitVec.eq_of_toNat_eq (by
    rw [Size.toNat_trunc_add, Size.toNat_trunc_add, Size.toNat_trunc, Nat.mod_add_mod])

/-- Adding the subtrahend back to a truncated difference gives the minuend. -/
theorem Size.trunc_sub_add_cancel {sz : Size} {d : Word} (hd : sz.fits d = true) (s c : Word) :
    sz.trunc (sz.trunc (d - s - c) + s + c) = d := by
  rw [add_assoc, Size.trunc_trunc_add, sub_sub, sub_add_cancel, Size.trunc_of_fits hd]

/-- The sign bit splits the values of a size in two halves. -/
theorem Size.msb_iff {sz : Size} {v : Word} (h : sz.fits v = true) :
    sz.msb v = true ↔ 2 ^ (sz.bits - 1) ≤ v.toNat := by
  have hv := Size.fits_iff.1 h
  cases sz <;> simp only [Size.msb, Size.bits, BitVec.getLsbD, Nat.testBit_eq_decide_div_mod_eq] at hv ⊢ <;>
    simp <;> omega

@[simp] theorem Size.msb_zero (sz : Size) : sz.msb 0#32 = false := by cases sz <;> rfl

namespace Machine

/-- A word read as signed at a width that holds it counts its sign bit negatively. -/
theorem toInt_setWidth_of_lt {v : Word} {w : Nat} (hw : 0 < w) (h : v.toNat < 2 ^ w) :
    (v.setWidth w).toInt = v.toNat - (v.getLsbD (w - 1)).toNat * 2 ^ w := by
  have hmsb : (v.setWidth w).msb = v.getLsbD (w - 1) := by simp [BitVec.msb_eq_getLsbD_last, hw]
  rw [BitVec.toInt_eq_msb_cond, hmsb, BitVec.toNat_setWidth, Nat.mod_eq_of_lt h]
  cases v.getLsbD (w - 1) <;> simp

/-- The signed reading of an operand (R12). -/
theorem signedAt_eq {sz : Size} {v : Word} (h : sz.fits v = true) :
    signedAt sz v = v.toNat - (sz.msb v).toNat * 2 ^ sz.bits := by
  have hv := Size.fits_iff.1 h
  cases sz with
  | b => exact (BitVec.toInt_signExtend_of_le (by decide)).trans (toInt_setWidth_of_lt (by decide) hv)
  | w => exact (BitVec.toInt_signExtend_of_le (by decide)).trans (toInt_setWidth_of_lt (by decide) hv)
  | l => exact (congrArg BitVec.toInt (BitVec.setWidth_eq v).symm).trans (toInt_setWidth_of_lt (by decide) hv)

/-- The signed range of a size. -/
theorem signedAt_range {sz : Size} {v : Word} (h : sz.fits v = true) :
    -2 ^ (sz.bits - 1) ≤ signedAt sz v ∧ signedAt sz v ≤ 2 ^ (sz.bits - 1) - 1 := by
  have hlt := Size.fits_iff.1 h
  have hmsb := Size.msb_iff h
  have hbits := sz.two_pow_bits
  rw [signedAt_eq h]
  zify at hlt hmsb hbits
  cases hm : sz.msb v <;> simp [hm] at hmsb ⊢ <;> omega

/-- The sign bit is the sign (R12). -/
theorem msb_iff_signedAt_neg {sz : Size} {v : Word} (h : sz.fits v = true) :
    sz.msb v = true ↔ signedAt sz v < 0 := by
  have hlt := Size.fits_iff.1 h
  rw [signedAt_eq h]
  zify at hlt
  cases sz.msb v <;> simp
  omega

theorem signedAt_inj {sz : Size} {u v : Word} (hu : sz.fits u = true) (hv : sz.fits v = true) :
    signedAt sz u = signedAt sz v ↔ u = v := by
  refine ⟨fun h => BitVec.eq_of_toNat_eq ?_, fun h => h ▸ rfl⟩
  have hult := Size.fits_iff.1 hu
  have hvlt := Size.fits_iff.1 hv
  rw [signedAt_eq hu, signedAt_eq hv] at h
  zify at hult hvlt ⊢
  cases hmu : sz.msb u <;> cases hmv : sz.msb v <;> simp [hmu, hmv] at h <;> omega

/-! ## The laws of an addition with a carry in (R181) -/

section
variable {sz : Size} {s d r c : Word}

/-- The carry formula of R181 is the carry out: it is set when two of `s`, `d` and the complement of `r` are in the
upper half. -/
theorem flagsAdd_carry (hs : sz.fits s = true) (hd : sz.fits d = true) (hc : c.toNat ≤ 1)
    (hr : sz.trunc (d + s + c) = r) :
    d.toNat + s.toNat + c.toNat = r.toNat + (flagsAdd sz s d r).c.toNat * 2 ^ sz.bits := by
  have hrfits : sz.fits r = true := hr ▸ sz.fits_trunc _
  have hmod : (d.toNat + s.toNat + c.toNat) % 2 ^ sz.bits = r.toNat := by rw [← hr, Size.toNat_trunc_add_add]
  have hdlt := Size.fits_iff.1 hd
  have hslt := Size.fits_iff.1 hs
  have hrlt := Size.fits_iff.1 hrfits
  have hsum : d.toNat + s.toNat + c.toNat = r.toNat ∨ d.toNat + s.toNat + c.toNat = r.toNat + 2 ^ sz.bits := by
    obtain hlt | hge := Nat.lt_or_ge (d.toNat + s.toNat + c.toNat) (2 ^ sz.bits)
    · exact .inl (hmod ▸ (Nat.mod_eq_of_lt hlt).symm)
    · rw [Nat.mod_eq_sub_mod hge, Nat.mod_eq_of_lt (by omega)] at hmod
      omega
  have hbits := sz.two_pow_bits
  have hsm := Size.msb_iff hs
  have hdm := Size.msb_iff hd
  have hrm := Size.msb_iff hrfits
  simp only [flagsAdd]
  cases hms : sz.msb s <;> cases hmd : sz.msb d <;> cases hmr : sz.msb r <;>
    simp [hms, hmd, hmr] at hsm hdm hrm ⊢ <;> omega

/-- How many times `2 ^ w(sz)` a signed sum wraps: not without overflow, up from two negatives (`m` is the sign of one),
down from two positives. -/
def wrapOf (v m : Bool) : Int := if v then if m then -1 else 1 else 0

theorem neg_wrapOf (v m : Bool) : -wrapOf v m = wrapOf v (!m) := by cases v <;> cases m <;> rfl

/-- The overflow formula of R181 is the wrap of the signed sum: it is what the carry and the three sign bits leave. -/
theorem flagsAdd_overflow (hs : sz.fits s = true) (hd : sz.fits d = true) (hc : c.toNat ≤ 1)
    (hr : sz.trunc (d + s + c) = r) :
    signedAt sz d + signedAt sz s + c.toNat =
      signedAt sz r + wrapOf (flagsAdd sz s d r).v (sz.msb s) * 2 ^ sz.bits := by
  have hcarry := flagsAdd_carry hs hd hc hr
  have htable : ∀ s d r : Bool,
      ((s && d || !r && d || s && !r).toNat + r.toNat - d.toNat - s.toNat : Int) =
        wrapOf (s && d && !r || !s && !d && r) s := by decide
  have hsigns : ((flagsAdd sz s d r).c.toNat + (sz.msb r).toNat - (sz.msb d).toNat - (sz.msb s).toNat : Int) =
      wrapOf (flagsAdd sz s d r).v (sz.msb s) := htable _ _ _
  have hrfits : sz.fits r = true := hr ▸ sz.fits_trunc _
  rw [signedAt_eq hs, signedAt_eq hd, signedAt_eq hrfits]
  zify at hcarry
  linear_combination hcarry + 2 ^ sz.bits * hsigns

/-! ## A subtraction is the addition it undoes (R182) -/

theorem flagsSub_c (sz : Size) (s d r : Word) : (flagsSub sz s d r).c = (flagsAdd sz s r d).c := by
  have htable : ∀ s d r : Bool, (s && !d || r && !d || s && r) = (s && r || !d && r || s && !d) := by decide
  exact htable _ _ _

theorem flagsSub_v (sz : Size) (s d r : Word) : (flagsSub sz s d r).v = (flagsAdd sz s r d).v := by
  have htable : ∀ s d r : Bool, (!s && d && !r || s && !d && r) = (s && r && !d || !s && !r && d) := by decide
  exact htable _ _ _

theorem flagsSub_borrow (hs : sz.fits s = true) (hd : sz.fits d = true) (hc : c.toNat ≤ 1)
    (hr : sz.trunc (d - s - c) = r) :
    r.toNat + s.toNat + c.toNat = d.toNat + (flagsSub sz s d r).c.toNat * 2 ^ sz.bits := by
  subst hr
  rw [flagsSub_c]
  exact flagsAdd_carry hs (sz.fits_trunc _) hc (Size.trunc_sub_add_cancel hd s c)

theorem flagsSub_overflow (hs : sz.fits s = true) (hd : sz.fits d = true) (hc : c.toNat ≤ 1)
    (hr : sz.trunc (d - s - c) = r) :
    signedAt sz r + signedAt sz s + c.toNat =
      signedAt sz d + wrapOf (flagsSub sz s d r).v (sz.msb s) * 2 ^ sz.bits := by
  subst hr
  rw [flagsSub_v]
  exact flagsAdd_overflow hs (sz.fits_trunc _) hc (Size.trunc_sub_add_cancel hd s c)

/-! ## C and V of an addition and of a subtraction -/

theorem flagsAdd_c_eq (hs : sz.fits s = true) (hd : sz.fits d = true) (hc : c.toNat ≤ 1)
    (hr : sz.trunc (d + s + c) = r) :
    (flagsAdd sz s d r).c = decide (d.toNat + s.toNat + c.toNat ≥ 2 ^ sz.bits) := by
  have hlaw := flagsAdd_carry hs hd hc hr
  have hrlt := Size.fits_iff.1 (hr ▸ sz.fits_trunc _ : sz.fits r = true)
  cases h : (flagsAdd sz s d r).c <;> simp [h] at hlaw ⊢ <;> omega

theorem flagsSub_c_eq (hs : sz.fits s = true) (hd : sz.fits d = true) (hc : c.toNat ≤ 1)
    (hr : sz.trunc (d - s - c) = r) : (flagsSub sz s d r).c = decide (s.toNat + c.toNat > d.toNat) := by
  have hlaw := flagsSub_borrow hs hd hc hr
  have hrlt := Size.fits_iff.1 (hr ▸ sz.fits_trunc _ : sz.fits r = true)
  cases h : (flagsSub sz s d r).c <;> simp [h] at hlaw ⊢ <;> omega

/-- A number that differs from a value's signed reading by a wrap, if by anything, is out of range when it does. -/
theorem wrap_eq_outOfRange (hr : sz.fits r = true) {v m : Bool} {i : Int}
    (h : i = signedAt sz r + wrapOf v m * 2 ^ sz.bits) :
    v = decide (i < -2 ^ (sz.bits - 1) ∨ i > 2 ^ (sz.bits - 1) - 1) := by
  have hrange := signedAt_range hr
  have hbits := sz.two_pow_bits
  zify at hbits
  cases v <;> cases m <;> simp [wrapOf] at h ⊢ <;> omega

theorem flagsAdd_v_eq (hs : sz.fits s = true) (hd : sz.fits d = true) (hr : sz.trunc (d + s) = r) :
    (flagsAdd sz s d r).v = decide (signedAt sz d + signedAt sz s < -2 ^ (sz.bits - 1) ∨
      signedAt sz d + signedAt sz s > 2 ^ (sz.bits - 1) - 1) := by
  have hlaw := flagsAdd_overflow (c := 0) hs hd (by decide) ((congrArg sz.trunc (add_zero _)).trans hr)
  exact wrap_eq_outOfRange (hr ▸ sz.fits_trunc _) ((add_zero _).symm.trans hlaw)

/-- The signed difference wraps the other way round than the sum it undoes. -/
theorem signedAt_sub_eq (hs : sz.fits s = true) (hd : sz.fits d = true) (hr : sz.trunc (d - s) = r) :
    signedAt sz d - signedAt sz s =
      signedAt sz r + wrapOf (flagsSub sz s d r).v (!sz.msb s) * 2 ^ sz.bits := by
  have hlaw : signedAt sz r + signedAt sz s + 0 =
      signedAt sz d + wrapOf (flagsSub sz s d r).v (sz.msb s) * 2 ^ sz.bits :=
    flagsSub_overflow (c := 0) hs hd (by decide) ((congrArg sz.trunc (sub_zero _)).trans hr)
  rw [← neg_wrapOf]
  linear_combination -hlaw

theorem flagsSub_v_eq (hs : sz.fits s = true) (hd : sz.fits d = true) (hr : sz.trunc (d - s) = r) :
    (flagsSub sz s d r).v = decide (signedAt sz d - signedAt sz s < -2 ^ (sz.bits - 1) ∨
      signedAt sz d - signedAt sz s > 2 ^ (sz.bits - 1) - 1) :=
  wrap_eq_outOfRange (hr ▸ sz.fits_trunc _) (signedAt_sub_eq hs hd hr)

/-- N equals V after a subtraction exactly when the signed difference is not negative. -/
theorem flagsSub_n_eq_v_iff (hs : sz.fits s = true) (hd : sz.fits d = true) (hr : sz.trunc (d - s) = r) :
    (flagsSub sz s d r).n = (flagsSub sz s d r).v ↔ signedAt sz d ≥ signedAt sz s := by
  have hdiff := signedAt_sub_eq hs hd hr
  have hrfits : sz.fits r = true := hr ▸ sz.fits_trunc _
  have hn : (flagsSub sz s d r).n = true ↔ signedAt sz r < 0 := msb_iff_signedAt_neg hrfits
  have hrrange := signedAt_range hrfits
  have hsrange := signedAt_range hs
  have hdrange := signedAt_range hd
  have hbits := sz.two_pow_bits
  zify at hbits
  cases hv : (flagsSub sz s d r).v
  case false =>
    rw [← Bool.not_eq_true, hn]
    simp [hv, wrapOf] at hdiff
    omega
  case true =>
    rw [hn]
    cases hm : sz.msb s <;> simp [hv, hm, wrapOf] at hdiff <;> omega

/-- Z after a subtraction is equality. -/
theorem flagsSub_z (hs : sz.fits s = true) (hd : sz.fits d = true) (hr : sz.trunc (d - s) = r) :
    (flagsSub sz s d r).z = decide (d = s) := by
  refine decide_eq_decide.2 ⟨fun h => ?_, fun h => ?_⟩
  · have hsum := Size.trunc_sub_add_cancel hd s 0
    rw [sub_zero, hr, h, add_zero, zero_add, Size.trunc_of_fits hs] at hsum
    exact hsum.symm
  · rw [← hr, h, sub_self, Size.trunc_of_fits sz.fits_zero]

end

/-- Settles O7: the formulas are the model's own; the carry law and the wrap of the signed result give C and V. -/
theorem additionAndSubtractionFlags : Obligations.AdditionAndSubtractionFlags := by
  unfold Obligations.AdditionAndSubtractionFlags
  refine ⟨fun sz a b ha hb => ⟨rfl, rfl, rfl, rfl, rfl, ?_, flagsAdd_v_eq ha hb rfl⟩,
    fun sz a b ha hb => ⟨rfl, rfl, rfl, rfl, rfl, ?_, flagsSub_v_eq ha hb rfl⟩⟩
  · exact flagsAdd_c_eq (c := 0) ha hb (by decide) (congrArg sz.trunc (add_zero _))
  · exact flagsSub_c_eq (c := 0) ha hb (by decide) (congrArg sz.trunc (sub_zero _))

/-! ## Negation and the extended operations (R184, R185) -/

theorem Ccr.toNat_xWord (f : Ccr) : f.xWord.toNat = f.x.toNat := by
  unfold Ccr.xWord
  cases f.x <;> rfl

theorem Ccr.toNat_xWord_le (f : Ccr) : f.xWord.toNat ≤ 1 := f.toNat_xWord ▸ f.x.toNat_le

/-- The flags of a subtraction from zero (R185): it borrows unless it subtracts nothing. -/
theorem flagsSub_of_zero {sz : Size} {s c r : Word} {x : Bool} (hs : sz.fits s = true) (hc : c.toNat = x.toNat)
    (hr : sz.trunc (0 - s - c) = r) :
    flagsSub sz s 0 r = { x := decide (s ≠ 0 ∨ x = true), n := sz.msb r, z := decide (r = 0)
                          v := sz.msb s && sz.msb r, c := decide (s ≠ 0 ∨ x = true) } := by
  have hborrow : (flagsSub sz s 0 r).c = decide (s ≠ 0 ∨ x = true) := by
    rw [flagsSub_c_eq hs sz.fits_zero (hc ▸ x.toNat_le) hr, hc, decide_eq_decide, Ne, ← BitVec.toNat_inj]
    cases x <;> simp [Nat.pos_iff_ne_zero]
  have hv : (flagsSub sz s 0 r).v = (sz.msb s && sz.msb r) := by simp [flagsSub]
  rw [← hborrow, ← hv]
  rfl

/-- Negating overflows at the most negative value only. -/
theorem msb_and_msb_neg {sz : Size} {b r : Word} (hb : sz.fits b = true) (hr : sz.trunc (0 - b) = r) :
    (sz.msb b && sz.msb r) = decide (b.toNat = 2 ^ (sz.bits - 1)) := by
  have hv : (sz.msb b && sz.msb r) = (flagsSub sz b 0 r).v := by simp [flagsSub]
  have hlt := Size.fits_iff.1 hb
  have hmsb := Size.msb_iff hb
  have hbits := sz.two_pow_bits
  rw [hv, flagsSub_v_eq hb sz.fits_zero hr, decide_eq_decide, signedAt_eq hb, signedAt_eq sz.fits_zero]
  zify at hlt hmsb hbits ⊢
  cases hm : sz.msb b <;> simp [hm] at hmsb ⊢ <;> omega

/-- Settles O8: the carry law with X as the carry in, and a negation as a subtraction from zero. -/
theorem extendedAndNegationFlags : Obligations.ExtendedAndNegationFlags := by
  unfold Obligations.ExtendedAndNegationFlags
  refine ⟨fun sz a b f ha hb => ⟨?addxCarry, ?subxBorrow, rfl, rfl⟩,
    fun sz b f hb => ⟨?neg, msb_and_msb_neg hb rfl, ?negx⟩⟩
  case addxCarry => exact f.toNat_xWord ▸ flagsAdd_c_eq ha hb f.toNat_xWord_le rfl
  case subxBorrow => exact f.toNat_xWord ▸ flagsSub_c_eq ha hb f.toNat_xWord_le rfl
  case neg =>
    have hflags := flagsSub_of_zero (x := false) (c := 0) hb rfl (congrArg sz.trunc (sub_zero _))
    simpa only [flagsNeg, Bool.false_eq_true, or_false] using hflags
  case negx =>
    have hflags := flagsSub_of_zero hb f.toNat_xWord rfl
    rw [flagsNegX, flagsSubX, hflags]
    rfl

/-! ## The conditions after a compare (R197) -/

/-- Settles O9: C is the unsigned order, N against V the signed order, and Z is equality, of either reading. -/
theorem conditionsAfterCompare : Obligations.ConditionsAfterCompare := by
  unfold Obligations.ConditionsAfterCompare
  intro sz a b f ha hb g
  have hc : g.c = decide (a.toNat > b.toNat) :=
    flagsSub_c_eq (c := 0) ha hb (by decide) (congrArg sz.trunc (sub_zero _))
  have hz : g.z = decide (b = a) := flagsSub_z ha hb rfl
  have hge : (g.n == g.v) = decide (signedAt sz b ≥ signedAt sz a) :=
    Bool.eq_iff_iff.2 (beq_iff_eq.trans ((flagsSub_n_eq_v_iff ha hb rfl).trans decide_eq_true_iff.symm))
  have hnat : b = a ↔ b.toNat = a.toNat := BitVec.toNat_inj.symm
  have hint : b = a ↔ signedAt sz b = signedAt sz a := (signedAt_inj hb ha).symm
  simp only [condTest, bne, hc, hz, hge, ← decide_not, ← Bool.decide_and, ← Bool.decide_or, decide_eq_decide]
  refine ⟨?hi, ?cc, trivial, ?ls, ?gt, trivial, ?lt, ?le, trivial, trivial, rfl⟩
  case hi | ls => rw [hnat]; omega
  case gt | le => rw [hint]; omega
  case cc => exact not_lt
  case lt => exact not_le

end Machine
end Sys2Proof
end

section
/-! SUPPORT. Several accesses in a row (R214 to R221): what a write to memory or a load of a register leaves for the next
access, and the transfers of MOVEM and MOVEP when every access can be made. -/

namespace Sys2Proof.Machine

/-! ## One access of a value of a size -/

section
variable {t : State} {fc : FC} {a v : Word} {sz : Size}

theorem memWriteFC_ok_of_canStore (h : t.canStore (.mem fc a) sz = true) :
    memWriteFC fc a sz.bytes v t = .ok () (t.stored (.mem fc a) sz v) := writeEA_ok h

theorem memWrite_ok_of_canStore (h : t.canStore (.mem t.dataFC a) sz = true) :
    memWrite a sz.bytes v t = .ok () (t.stored (.mem t.dataFC a) sz v) := writeEA_ok h

theorem memReadFC_ok_of_valueAt (h : t.valueAt (.mem fc a) sz = some v) : memReadFC fc a sz.bytes t = .ok v t :=
  readEA_ok h

theorem memRead_ok_of_valueAt (h : t.valueAt (.mem t.dataFC a) sz = some v) : memRead a sz.bytes t = .ok v t :=
  readEA_ok h

end

/-! ## What one access leaves for the next -/

/-- Whether a location can be written depends on the parameters alone. -/
@[simp] theorem State.canStore_stored (s : State) (loc loc' : Loc) (sz sz' : Size) (v : Word) :
    (s.stored loc sz v).canStore loc' sz' = s.canStore loc' sz' := by
  simp only [State.canStore, State.stored_cfg]

/-- What memory holds at a location depends on the parameters and the bytes. -/
theorem State.valueAt_mem_congr {s t : State} (hcfg : t.cfg = s.cfg) (hmem : t.mem = s.mem) (fc : FC) (a : Word)
    (sz : Size) : t.valueAt (.mem fc a) sz = s.valueAt (.mem fc a) sz := by
  have hbyte (b : Word) : t.byteAt fc b = s.byteAt fc b := by simp only [State.byteAt, hcfg, hmem]
  have hbytes (n : Nat) (b : Word) : t.bytesAt fc b n = s.bytesAt fc b n := by
    induction n generalizing b with
    | zero => rfl
    | succ n ih => simp only [State.bytesAt, hbyte, ih]
  simp only [State.valueAt, hcfg, hbytes]

@[simp] theorem State.valueAt_setG (s : State) (r : GReg) (v : Word) (fc : FC) (a : Word) (sz : Size) :
    (s.setG r v).valueAt (.mem fc a) sz = s.valueAt (.mem fc a) sz := by
  cases r with
  | d n => exact State.valueAt_mem_congr (s.setD_cfg n v) (s.setD_mem n v) fc a sz
  | a n => exact State.valueAt_mem_congr (s.setA_cfg n v) (s.setA_mem n v) fc a sz

@[simp] theorem State.getG_stored_mem (s : State) (fc : FC) (a : Word) (sz : Size) (v : Word) :
    (s.stored (.mem fc a) sz v).getG = s.getG := by
  funext r
  cases r with
  | d n => exact congrArg (·[n]) (s.putBytes_d fc a v sz.bytes)
  | a n =>
    refine State.getA_congr (s.putBytes_a ..) (s.putBytes_usp ..) (s.putBytes_isp ..) (s.putBytes_msp ..) ?_ n
    simp [State.activeStack, State.supervisor, State.master]

theorem writeG_run (r : GReg) (v : Word) (t : State) : writeG r v t = .ok () (t.setG r v) := by cases r <;> rfl

/-! ## MOVEM: registers to memory (R214, R215, R218) -/

/-- The `i`th address of a transfer upward, `n` bytes at a time. -/
def upFrom (base : Word) (n i : Nat) : Word := base + BitVec.ofNat 32 (n * i)

/-- The address reached downward after `i` transfers of `n` bytes. -/
def downFrom (base : Word) (n i : Nat) : Word := base - BitVec.ofNat 32 (n * i)

@[simp] theorem upFrom_zero (base : Word) (n : Nat) : upFrom base n 0 = base := BitVec.add_zero base

@[simp] theorem downFrom_zero (base : Word) (n : Nat) : downFrom base n 0 = base := BitVec.sub_zero base

theorem upFrom_succ (base : Word) (n i : Nat) : upFrom base n (i + 1) = upFrom base n i + BitVec.ofNat 32 n := by
  rw [upFrom, Nat.mul_succ, BitVec.ofNat_add, ← BitVec.add_assoc, ← upFrom]

theorem downFrom_succ (base : Word) (n i : Nat) : downFrom base n (i + 1) = downFrom base n i - BitVec.ofNat 32 n := by
  rw [downFrom, Nat.mul_succ, BitVec.ofNat_add, ← BitVec.sub_sub, ← downFrom]

/-- The writes of a transfer to memory from its `k`th register on: the address of each, by its position, and its value. -/
def registerWrites (addr : Nat → Word) (value : GReg → Word) (rs : List GReg) (k : Nat) : List (Word × Word) :=
  (rs.zipIdx k).map fun p => (addr p.2, value p.1)

theorem registerWrites_cons (addr : Nat → Word) (value : GReg → Word) (r : GReg) (rs : List GReg) (k : Nat) :
    registerWrites addr value (r :: rs) k = (addr k, value r) :: registerWrites addr value rs (k + 1) := rfl

theorem storeRegs_ok {t : State} {sz : Size} {fc : FC} {base : Word} {rs : List GReg} {k : Nat}
    (hstore : ∀ w ∈ registerWrites (upFrom base sz.bytes) t.getG rs k, t.canStore (.mem fc w.1) sz = true) :
    storeRegs sz fc rs (upFrom base sz.bytes k) t =
      .ok () (t.storedAll fc sz (registerWrites (upFrom base sz.bytes) t.getG rs k)) := by
  induction rs generalizing t k with
  | nil => rfl
  | cons r rs ih =>
    rw [registerWrites_cons] at hstore ⊢
    obtain ⟨hfirst, hrest⟩ := List.forall_mem_cons.1 hstore
    have hih := ih (t := t.stored (.mem fc (upFrom base sz.bytes k)) sz (t.getG r)) (k := k + 1) (by simpa using hrest)
    rw [State.getG_stored_mem, upFrom_succ] at hih
    simp only [storeRegs]
    rw [bind_ok (readG_run r t), bind_ok (memWriteFC_ok_of_canStore hfirst)]
    exact hih

/-- `Stored(R)` (R218): a register of the list, the base register on mc68020 as lowered already. -/
def State.storedG (s : State) (sz : Size) (an : RegNo) (count : Nat) (r : GReg) : Word :=
  if r = .a an ∧ s.cfg.model = .mc68020 then downFrom (s.getA an) sz.bytes count else s.getG r

theorem storedValue_run (sz : Size) (an : RegNo) (count : Nat) (r : GReg) (t : State) :
    storedValue sz an count r t = .ok (t.storedG sz an count r) t := by
  simp only [storedValue, State.storedG, ← Model.is20_iff]
  rw [bind_ok (readG_run r t), readModel_bind, pure_run]
  by_cases hr : r = .a an
  · subst hr
    rfl
  · simp only [hr, false_and, if_false]

@[simp] theorem State.storedG_stored_mem (s : State) (fc : FC) (a : Word) (sz : Size) (v : Word) (an : RegNo)
    (count : Nat) : (s.stored (.mem fc a) sz v).storedG sz an count = s.storedG sz an count := by
  have hA : (s.stored (.mem fc a) sz v).getA an = s.getA an := congrFun (s.getG_stored_mem fc a sz v) (.a an)
  funext r
  simp only [State.storedG, hA, State.getG_stored_mem, State.stored_cfg]

theorem storeRegsDown_ok {t : State} {sz : Size} {an : RegNo} {count : Nat} {base : Word} {rs : List GReg} {k : Nat}
    (hstore : ∀ w ∈ registerWrites (fun i => downFrom base sz.bytes (i + 1)) (t.storedG sz an count) rs k,
      t.canStore (.mem t.dataFC w.1) sz = true) :
    storeRegsDown sz an count rs (downFrom base sz.bytes k) t = .ok (downFrom base sz.bytes (k + rs.length))
      (t.storedAll t.dataFC sz
        (registerWrites (fun i => downFrom base sz.bytes (i + 1)) (t.storedG sz an count) rs k)) := by
  induction rs generalizing t k with
  | nil => rfl
  | cons r rs ih =>
    rw [registerWrites_cons] at hstore ⊢
    obtain ⟨hfirst, hrest⟩ := List.forall_mem_cons.1 hstore
    have hih := ih (k := k + 1)
      (t := t.stored (.mem t.dataFC (downFrom base sz.bytes (k + 1))) sz (t.storedG sz an count r))
      (by simpa using hrest)
    rw [State.storedG_stored_mem, State.dataFC_stored, Nat.add_right_comm] at hih
    simp only [storeRegsDown, ← downFrom_succ]
    rw [bind_ok (storedValue_run sz an count r t), bind_ok (memWrite_ok_of_canStore hfirst)]
    exact hih

/-! ## MOVEM: memory to registers (R216, R217) -/

theorem loadRegs_ok {t : State} {sz : Size} {fc : FC} {base : Word} {rs : List GReg} {vs : List Word} {k : Nat}
    (hlength : vs.length = rs.length)
    (hvalue : ∀ p ∈ vs.zipIdx k, t.valueAt (.mem fc (upFrom base sz.bytes p.2)) sz = some p.1) :
    loadRegs sz fc rs (upFrom base sz.bytes k) t =
      .ok (upFrom base sz.bytes (k + vs.length)) (t.setAllG (rs.zip (vs.map sz.sext))) := by
  induction rs generalizing t vs k with
  | nil =>
    obtain rfl := List.length_eq_zero_iff.1 hlength
    rfl
  | cons r rs ih =>
    obtain ⟨v, vs, rfl⟩ := List.exists_cons_of_length_eq_add_one hlength
    obtain ⟨hfirst, hrest⟩ := List.forall_mem_cons.1 hvalue
    have hih := ih (t := t.setG r (sz.sext v)) (k := k + 1) (Nat.succ.inj hlength) (by simpa using hrest)
    rw [upFrom_succ, Nat.add_right_comm] at hih
    simp only [loadRegs]
    rw [bind_ok (memReadFC_ok_of_valueAt hfirst), bind_ok (writeG_run r (sz.sext v) t)]
    exact hih

/-! ## MOVEP (R220, R221) -/

/-- Values at every second address from `a` on. -/
def everySecond : List Word → Word → List (Word × Word)
  | [], _ => []
  | b :: bs, a => (a, b) :: everySecond bs (a + 2)

theorem everySecond_two (b0 b1 a : Word) : everySecond [b0, b1] a = [(a, b0), (a + 2, b1)] := rfl

theorem everySecond_four (b0 b1 b2 b3 a : Word) :
    everySecond [b0, b1, b2, b3] a = [(a, b0), (a + 2, b1), (a + 4, b2), (a + 6, b3)] := by
  have h4 : a + 2 + 2 = a + 4 := BitVec.add_assoc a 2 2
  have h6 : a + 4 + 2 = a + 6 := BitVec.add_assoc a 4 2
  simp only [everySecond, h4, h6]

/-- The values whose low bytes are the low `n` bytes of `v`, the high one first (R220). -/
def splitBytes (v : Word) : Nat → List Word
  | 0 => []
  | n + 1 => (v >>> (8 * n)) :: splitBytes v n

theorem storeAlternate_ok {t : State} {v : Word} {n : Nat} {a : Word}
    (hstore : ∀ w ∈ everySecond (splitBytes v n) a, t.canStore (.mem t.dataFC w.1) .b = true) :
    storeAlternate v n a t = .ok () (t.storedAll t.dataFC .b (everySecond (splitBytes v n) a)) := by
  induction n generalizing t a with
  | zero => rfl
  | succ n ih =>
    obtain ⟨hfirst, hrest⟩ := List.forall_mem_cons.1 hstore
    have hih := ih (t := t.stored (.mem t.dataFC a) .b (v >>> (8 * n))) (by simpa using hrest)
    rw [State.dataFC_stored] at hih
    exact (bind_ok (memWrite_ok_of_canStore hfirst)).trans hih

/-- The value of bytes, the high one first (R221). -/
def joinBytes : List Word → Word
  | [] => 0
  | b :: bs => (b <<< (8 * bs.length)) ||| joinBytes bs

theorem joinBytes_two (b0 b1 : Word) : joinBytes [b0, b1] = (b0 <<< 8) ||| b1 := by
  simp [joinBytes]

theorem joinBytes_four (b0 b1 b2 b3 : Word) :
    joinBytes [b0, b1, b2, b3] = (b0 <<< 24) ||| (b1 <<< 16) ||| (b2 <<< 8) ||| b3 := by
  simp [joinBytes, BitVec.or_assoc]

theorem loadAlternate_ok {t : State} {bs : List Word} {a : Word}
    (hvalue : ∀ p ∈ everySecond bs a, t.valueAt (.mem t.dataFC p.1) .b = some p.2) :
    loadAlternate bs.length a t = .ok (joinBytes bs) t := by
  induction bs generalizing a with
  | nil => rfl
  | cons b bs ih =>
    obtain ⟨hfirst, hrest⟩ := List.forall_mem_cons.1 hvalue
    exact (bind_ok (memRead_ok_of_valueAt hfirst)).trans (bind_ok (ih hrest))

end Sys2Proof.Machine
end

section
/-! SUPPORT. The register-list mask of MOVEM (R213): which registers it selects, and the order of its two readings. -/

namespace Sys2Proof

/-- The position of a register in the order D0 .. D7, A0 .. A7 (R213). -/
def GReg.index : GReg → Fin 16
  | .d n => n.castLE (by decide)
  | .a n => n.addNat 8

namespace Machine

theorem gregOfIndex_eq_iff {i : Fin 16} {r : GReg} : gregOfIndex i = r ↔ i = r.index := by
  cases r with
  | d n => decide +revert
  | a n => decide +revert

theorem mem_maskRegs {mask : Half} {r : GReg} : r ∈ maskRegs mask ↔ mask.getLsbD r.index.val = true := by
  simp only [maskRegs, List.mem_map, List.mem_filter, List.mem_finRange, true_and, gregOfIndex_eq_iff,
    exists_eq_right]

/-- In the reversed mask bit `i` selects the register of position `15 - i`. -/
theorem maskRegsPredec_eq (mask : Half) :
    maskRegsPredec mask = ((List.finRange 16).filter fun i => mask.getLsbD i.val).map fun i => gregOfIndex i.rev := by
  have hrev : ∀ i : Fin 16, Fin.ofNat 16 (15 - i.val) = i.rev := by decide
  simp only [maskRegsPredec, hrev]

theorem mem_maskRegsPredec {mask : Half} {r : GReg} :
    r ∈ maskRegsPredec mask ↔ mask.getLsbD r.index.rev.val = true := by
  simp only [maskRegsPredec_eq, List.mem_map, List.mem_filter, List.mem_finRange, true_and, gregOfIndex_eq_iff,
    Fin.rev_eq_iff, exists_eq_right]

theorem maskRegs_sublist (mask : Half) : (maskRegs mask).Sublist ((List.finRange 16).map gregOfIndex) :=
  List.filter_sublist.map gregOfIndex

theorem maskRegsPredec_eq_reverse (mask : Half) : maskRegsPredec mask = (maskRegs mask.reverse).reverse := by
  have hbit (i : Fin 16) : mask.reverse.getLsbD i.rev.val = mask.getLsbD i.val := by
    have hpos : 16 - 1 - i.rev.val = i.val := by rw [Fin.val_rev]; omega
    rw [BitVec.getLsbD_reverse, BitVec.getMsbD_eq_getLsbD, hpos, decide_eq_true i.rev.isLt, Bool.true_and]
  rw [maskRegsPredec_eq, maskRegs, ← List.map_reverse, ← List.filter_reverse, List.finRange_reverse, List.filter_map,
    List.map_map]
  simp only [Function.comp_def, hbit]

end Machine
end Sys2Proof
end

section
/-! SUPPORT. The obligations on data movement (R210 to R226): each rule followed access by access to its end. -/

namespace Sys2Proof.Machine

/-! ## MOVE, MOVEQ, EXT, SWAP, EXG -/

theorem moveRule_ok {t : State} {sz : Size} {src dst : Ea} {v : Word} (hsrc : t.eaReady src sz = true)
    (hvalue : t.operand src sz = some v) (hdst : (t.afterEA src sz).eaReady dst sz = true)
    (hstore : ((t.afterEA src sz).afterEA dst sz).canStore ((t.afterEA src sz).eaLoc dst sz) sz = true) :
    moveRule sz src dst t = .ok () ((((t.afterEA src sz).afterEA dst sz).stored ((t.afterEA src sz).eaLoc dst sz) sz
      v).setFlags (flagsLogic sz v ((t.afterEA src sz).afterEA dst sz).flags)) := by
  simp only [moveRule]
  rw [bind_ok (fetchEA_ok hsrc hvalue), bind_ok (calcEA_ok hdst), bind_ok (writeEA_ok hstore), modifyFlags_run,
    State.flags_stored]

/-- Settles O27: the three sizes share one rule. -/
theorem move : Obligations.Move := by
  unfold Obligations.Move
  intro s sz src dst v t1 t2 loc hsrc hvalue hdst hstore
  have hrule := moveRule_ok hsrc hvalue hdst hstore
  cases sz with
  | b | w | l => exact cycle_ok hrule

/-- EXT.W truncates its 32-bit sign extension to a word (R255). -/
theorem trunc_sext8 (b : Byte) : Size.w.trunc (sext8 b) = (b.signExtend 16).setWidth 32 := by
  have htrunc : Size.w.trunc (sext8 b) = ((sext8 b).setWidth 16).setWidth 32 := by
    refine BitVec.eq_of_toNat_eq ?_
    rw [Size.toNat_trunc, BitVec.toNat_setWidth_of_le (by decide), BitVec.toNat_setWidth]
    rfl
  have hnarrow : (sext8 b).setWidth 16 = b.signExtend 16 := by
    ext i hi
    simp [sext8, BitVec.getElem_signExtend, show i < 32 by omega, BitVec.getLsbD_eq_getElem]
  rw [htrunc, hnarrow]

/-- Settles O23: every operand is a register, so nothing can fail. -/
theorem registerOnly : Obligations.RegisterOnly := by
  unfold Obligations.RegisterOnly
  intro s x y imm t m ew el sw
  refine ⟨rfl, ?extW, rfl, rfl, rfl, rfl, rfl⟩
  have hew : ew = Size.w.trunc (sext8 ((t.getD x).setWidth 8)) := (trunc_sext8 _).symm
  rw [hew]
  rfl

/-! ## MOVEM -/

section
variable {s : State} {sz : Size} {mask : Half} (hfetch : s.started.canFetch 1 = true)
include hfetch

/-- MOVEM registers to memory, control modes (R214): from the location on, upward. -/
theorem execMovemToMem_ok {ea : Ea} (hready : (s.started.skip 1).eaReady ea sz = true) :
    let t := (s.started.skip 1).afterEA ea sz
    let loc := (s.started.skip 1).eaLoc ea sz
    let writes := registerWrites (upFrom loc.addr sz.bytes) t.getG (maskRegs mask) 0
    (∀ w ∈ writes, t.canStore (.mem loc.fc w.1) sz = true) →
    execMovemToMem sz mask ea s = .next (finish true s.pc (t.storedAll loc.fc sz writes)) := by
  intro t loc writes hstore
  have hregs := storeRegs_ok hstore
  rw [upFrom_zero] at hregs
  refine cycle_ok ?_
  rw [bind_ok (fetchExt_ok_of_canFetch hfetch), bind_ok (calcEA_ok hready)]
  exact hregs

/-- MOVEM registers to memory, predecrement (R215, R218): from An down, An ending at the last address. -/
theorem execMovemToPredec_ok {an : RegNo} :
    let t := s.started.skip 1
    let regs := maskRegsPredec mask
    let addr := downFrom (t.getA an) sz.bytes
    let writes := registerWrites (fun i => addr (i + 1)) (t.storedG sz an regs.length) regs 0
    (∀ w ∈ writes, t.canStore (.mem t.dataFC w.1) sz = true) →
    execMovemToPredec sz mask an s =
      .next (finish true s.pc ((t.storedAll t.dataFC sz writes).setA an (addr regs.length))) := by
  intro t regs addr writes hstore
  have hregs := storeRegsDown_ok hstore
  rw [downFrom_zero, Nat.zero_add] at hregs
  refine cycle_ok ?_
  rw [bind_ok (fetchExt_ok_of_canFetch hfetch), readA_bind, bind_ok hregs, writeA_run]

variable {vs : List Word} (hlength : vs.length = (maskRegs mask).length)
include hlength

/-- MOVEM memory to registers, control modes (R216): from the location on, upward. -/
theorem execMovemFromMem_ok {ea : Ea} (hready : (s.started.skip 1).eaReady ea sz = true) :
    let t := (s.started.skip 1).afterEA ea sz
    let loc := (s.started.skip 1).eaLoc ea sz
    (∀ p ∈ vs.zipIdx, t.valueAt (.mem loc.fc (upFrom loc.addr sz.bytes p.2)) sz = some p.1) →
    execMovemFromMem sz mask ea s = .next (finish true s.pc (t.setAllG ((maskRegs mask).zip (vs.map sz.sext)))) := by
  intro t loc hvalue
  have hregs := loadRegs_ok hlength hvalue
  rw [upFrom_zero] at hregs
  refine cycle_ok ?_
  rw [bind_ok (fetchExt_ok_of_canFetch hfetch), bind_ok (calcEA_ok hready), bind_ok hregs, pure_run]

/-- MOVEM memory to registers, postincrement (R217): the address past the last value is written after the loads. -/
theorem execMovemFromPostinc_ok {an : RegNo} :
    let t := s.started.skip 1
    let addr := upFrom (t.getA an) sz.bytes
    (∀ p ∈ vs.zipIdx, t.valueAt (.mem s.dataFC (addr p.2)) sz = some p.1) →
    execMovemFromPostinc sz mask an s = .next (finish true s.pc
      ((t.setAllG ((maskRegs mask).zip (vs.map sz.sext))).setA an (addr vs.length))) := by
  intro t addr hvalue
  have hregs := loadRegs_ok hlength hvalue
  rw [upFrom_zero, Nat.zero_add] at hregs
  refine cycle_ok ?_
  rw [bind_ok (fetchExt_ok_of_canFetch hfetch), readA_bind, bind_ok hregs, writeA_run]

end

/-- Settles O28: the words of the transfer by induction on its registers, and the mask by the positions it selects. -/
theorem movemToMemory : Obligations.MovemToMemory := by
  unfold Obligations.MovemToMemory
  refine ⟨?transfer, fun mask => ⟨fun n => ?select, maskRegs_sublist mask, maskRegsPredec_eq_reverse mask⟩⟩
  case transfer =>
    intro s sz mask s1 hfetch
    exact ⟨fun ea hready => execMovemToMem_ok hfetch hready, fun an => execMovemToPredec_ok hfetch⟩
  case select =>
    have ha : (GReg.a n).index.rev.val = 7 - n.val := by rw [Fin.val_rev, GReg.index, Fin.val_addNat]; omega
    have hd : (GReg.d n).index.rev.val = 15 - n.val := by rw [Fin.val_rev, GReg.index, Fin.val_castLE]; omega
    exact ⟨mem_maskRegs, mem_maskRegs, ha ▸ mem_maskRegsPredec, hd ▸ mem_maskRegsPredec⟩

/-- Settles O29: the loads by induction on the registers, in both forms. -/
theorem movemFromMemory : Obligations.MovemFromMemory := by
  unfold Obligations.MovemFromMemory
  intro s sz mask vs s1 loads hfetch hlength
  exact ⟨fun ea hready => execMovemFromMem_ok hfetch hlength hready,
    fun an => execMovemFromPostinc_ok hfetch hlength⟩

/-! ## MOVEP -/

section
variable {s : State} {sz : Size} {x y : RegNo} {d : Half} (hfetch : s.started.canFetch 1 = true)
include hfetch

theorem movepStoreRule_ok {ws : List (Word × Word)}
    (hwrites : everySecond (splitBytes (s.getD x) sz.bytes) (s.getA y + d.signExtend 32) = ws)
    (hstore : ∀ w ∈ ws, (s.started.skip 1).canStore (.mem s.dataFC w.1) .b = true) :
    movepStoreRule sz x y d s.started = .ok () ((s.started.skip 1).storedAll s.dataFC .b ws) := by
  subst hwrites
  simp only [movepStoreRule]
  rw [bind_ok (fetchExt_ok_of_canFetch hfetch), readA_bind, readD_bind]
  exact storeAlternate_ok hstore

theorem movepLoadRule_ok {bs : List Word} {rs : List (Word × Word)} (hlength : bs.length = sz.bytes)
    (hreads : everySecond bs (s.getA y + d.signExtend 32) = rs)
    (hvalue : ∀ p ∈ rs, (s.started.skip 1).valueAt (.mem s.dataFC p.1) .b = some p.2) :
    movepLoadRule sz x y d s.started = .ok () ((s.started.skip 1).setDSized sz x (joinBytes bs)) := by
  subst hreads
  have hbytes : loadAlternate sz.bytes ((s.started.skip 1).getA y + sext16 d) (s.started.skip 1) = _ :=
    hlength ▸ loadAlternate_ok hvalue
  simp only [movepLoadRule]
  rw [bind_ok (fetchExt_ok_of_canFetch hfetch), readA_bind, bind_ok hbytes, writeDSized_run]

end

/-- Settles O30: the rules of all four forms, with the bytes of a word or of a long written out. -/
theorem movePeripheral : Obligations.MovePeripheral := by
  unfold Obligations.MovePeripheral
  intro s x y d t a v hfetch
  refine ⟨fun hs0 hs2 => ⟨cycle_ok ?storeW, fun hs4 hs6 => cycle_ok ?storeL⟩,
    fun b0 b1 hv0 hv2 => ⟨cycle_ok ?loadW, fun b2 b3 hv4 hv6 => cycle_ok ?loadL⟩⟩
  case storeW =>
    refine movepStoreRule_ok hfetch (everySecond_two (v >>> 8) v a) ?_
    simpa only [List.forall_mem_cons] using ⟨hs0, hs2, List.forall_mem_nil _⟩
  case storeL =>
    refine movepStoreRule_ok hfetch (everySecond_four (v >>> 24) (v >>> 16) (v >>> 8) v a) ?_
    simpa only [List.forall_mem_cons] using ⟨hs0, hs2, hs4, hs6, List.forall_mem_nil _⟩
  case loadW =>
    rw [← joinBytes_two]
    refine movepLoadRule_ok hfetch rfl (everySecond_two b0 b1 a) ?_
    simpa only [List.forall_mem_cons] using ⟨hv0, hv2, List.forall_mem_nil _⟩
  case loadL =>
    rw [← joinBytes_four]
    refine movepLoadRule_ok hfetch rfl (everySecond_four b0 b1 b2 b3 a) ?_
    simpa only [List.forall_mem_cons] using ⟨hv0, hv2, hv4, hv6, List.forall_mem_nil _⟩

/-! ## PEA, LINK, UNLK -/

@[simp] theorem State.setSP_setSP (s : State) (u v : Word) : (s.setSP u).setSP v = s.setSP v := by
  unfold State.setSP
  cases h : s.activeStack <;> simp_all [State.activeStack, State.supervisor, State.master]

theorem State.getA_setSP (s : State) (n : RegNo) (v : Word) :
    (s.setSP v).getA n = if n = 7 then v else s.getA n := by
  split
  · subst n
    exact s.getSP_setSP v
  · exact State.getA_of_ne_seven ‹n ≠ 7› (s.setSP_a v)

/-- A pop, when the long can be read. -/
theorem popLong_ok {s : State} {v : Word} (h : s.valueAt (.mem s.dataFC s.getSP) .l = some v) :
    popLong s = .ok v (s.setSP (s.getSP + 4)) := by
  have hread : memRead s.getSP 4 s = .ok v s := memRead_ok_of_valueAt h
  simp only [popLong, readSP_bind]
  rw [bind_ok hread, writeSP_bind, pure_run]

/-- LINK (R225): the value of An is read once A7 is lowered. -/
theorem execLink_ok {s : State} {an : RegNo} {d : Half} (hfetch : s.started.canFetch 1 = true)
    (hpush : (s.started.skip 1).canPush = true) :
    let sp := s.getSP - 4
    let u := ((s.started.skip 1).pushed (if an = 7 then sp else s.getA an)).setA an sp
    execLink an d s = .next (finish true s.pc (u.setSP (u.getSP + d.signExtend 32))) := by
  intro sp u
  refine cycle_ok ?_
  rw [bind_ok (fetchExt_ok_of_canFetch hfetch), readSP_bind, writeSP_bind, readA_bind, State.getA_setSP]
  exact bind_ok (pushLong_ok hpush)

/-- UNLK (R226): A7 takes the value of An and is popped before An is loaded. -/
theorem execUnlk_ok {s : State} {an : RegNo} {v : Word}
    (hvalue : s.started.valueAt (.mem s.dataFC (s.getA an)) .l = some v) :
    execUnlk an s = .next (finish true s.pc ((s.started.setSP (s.getA an + 4)).setA an v)) := by
  let t := s.started.setSP (s.getA an)
  have hread : t.valueAt (.mem t.dataFC t.getSP) .l = some v := by
    rw [State.getSP_setSP, State.dataFC_setSP, State.valueAt_mem_congr (State.setSP_cfg ..) (State.setSP_mem ..)]
    exact hvalue
  have hpop := popLong_ok hread
  rw [State.getSP_setSP, State.setSP_setSP] at hpop
  refine cycle_ok ?_
  rw [readA_bind, writeSP_bind]
  exact (bind_ok hpop).trans (writeA_run ..)

/-- Settles O31: a push of the address, and the two rules of the frame. -/
theorem stackFrames : Obligations.StackFrames := by
  unfold Obligations.StackFrames
  intro s
  refine ⟨fun ea hready hpush => cycle_ok ?_, fun an d => execLink_ok, fun an v => execUnlk_ok⟩
  rw [bind_ok (calcEA_ok hready), pushLong_ok hpush]

end Sys2Proof.Machine
end

section
/-! SUPPORT. The rules that the arithmetic and logical instructions share (R181 to R186, R240 to R267, R290 to R298):
where each one ends when its operands can be fetched, read and stored. -/

namespace Sys2Proof.Machine

/-- The last two writes of a rule: the result to its location, then the flags. -/
theorem writeResult_ok {t : State} {loc : Loc} {sz : Size} {o : Word × Ccr} (hstore : t.canStore loc sz = true) :
    (do writeEA loc sz o.1; writeFlags o.2 : Op Unit) t = .ok () ((t.stored loc sz o.1).setFlags o.2) :=
  bind_ok (writeEA_ok hstore)

section
variable {s : State} {sz : Size} {ea : Ea} {v : Word} (hready : s.eaReady ea sz = true)
  (hvalue : s.operand ea sz = some v)
include hready hvalue

/-- `op <ea>,Dn` (R240). -/
theorem aluToReg_ok (f : Alu) (dn : RegNo) :
    let t := s.afterEA ea sz
    let o := f sz v (sz.trunc (t.getD dn)) t.flags
    aluToReg f sz dn ea s = .ok () ((t.setDSized sz dn o.1).setFlags o.2) :=
  bind_ok (fetchEA_ok hready hvalue)

/-- `op <ea>,An` (R242). -/
theorem addressOp_ok (f : Word → Word → Word) (an : RegNo) :
    let t := s.afterEA ea sz
    addressOp f sz an ea s = .ok () (t.setA an (f (t.getA an) (sz.sext v))) :=
  bind_ok (fetchEA_ok hready hvalue)

/-- MOVEA (R211). -/
theorem moveaRule_ok (an : RegNo) : moveaRule sz an ea s = .ok () ((s.afterEA ea sz).setA an (sz.sext v)) :=
  bind_ok (fetchEA_ok hready hvalue)

section
variable (hstore : (s.afterEA ea sz).canStore (s.eaLoc ea sz) sz = true)
include hstore

/-- `op Dn,<ea>` (R241). -/
theorem aluToEa_ok (f : Alu) (dn : RegNo) :
    let t := s.afterEA ea sz
    let o := f sz (sz.trunc (t.getD dn)) v t.flags
    aluToEa f sz dn ea s = .ok () ((t.stored (s.eaLoc ea sz) sz o.1).setFlags o.2) :=
  (bind_ok (openEA_ok hready hvalue)).trans (writeResult_ok hstore)

/-- `op <ea>` (R259). -/
theorem aluUnary_ok (f : Alu1) :
    let t := s.afterEA ea sz
    let o := f sz v t.flags
    aluUnary f sz ea s = .ok () ((t.stored (s.eaLoc ea sz) sz o.1).setFlags o.2) :=
  (bind_ok (openEA_ok hready hvalue)).trans (writeResult_ok hstore)

/-- ADDQ and SUBQ to what is no address register (R244, R265). -/
theorem quickOp_ok (f : Alu) (g : Word → Word → Word) (q : RegNo) (hea : ∀ n, ea ≠ .areg n) :
    let t := s.afterEA ea sz
    let o := f sz (quickValue q) v t.flags
    quickOp f g sz q ea s = .ok () ((t.stored (s.eaLoc ea sz) sz o.1).setFlags o.2) := by
  intro t o
  cases ea with
  | areg n => exact absurd rfl (hea n)
  | _ => exact (bind_ok (openEA_ok hready hvalue)).trans (writeResult_ok hstore)

end
end

/-- `op #imm,<ea>` (R243): the words of the immediate come first. -/
theorem aluImm_ok {s : State} {sz : Size} {imm d : Word} {ea : Ea} (f : Alu)
    (hfetch : s.canFetch (if sz = .l then 2 else 1) = true) :
    let s1 := s.skip (if sz = .l then 2 else 1)
    let t := s1.afterEA ea sz
    let loc := s1.eaLoc ea sz
    let o := f sz imm d t.flags
    s1.eaReady ea sz = true → s1.operand ea sz = some d → t.canStore loc sz = true →
    aluImm f sz imm ea s = .ok () ((t.stored loc sz o.1).setFlags o.2) := by
  intro s1 t loc o hready hvalue hstore
  simp only [aluImm]
  rw [bind_ok (fetchImm_ok hfetch), bind_ok (openEA_ok hready hvalue)]
  exact writeResult_ok hstore

/-- `op -(Ay),-(Ax)` (R246): the flags are those of the start, for neither decrement writes one. -/
theorem aluMemMem_ok {s : State} {sz : Size} {ax ay : RegNo} {v d : Word} (f : Alu)
    (hsource : s.operand (.predec ay) sz = some v) :
    let t1 := s.afterEA (.predec ay) sz
    let t2 := t1.afterEA (.predec ax) sz
    let loc := t1.eaLoc (.predec ax) sz
    let o := f sz v d s.flags
    t1.operand (.predec ax) sz = some d → t2.canStore loc sz = true →
    aluMemMem f sz ax ay s = .ok () ((t2.stored loc sz o.1).setFlags o.2) := by
  intro t1 t2 loc o hdest hstore
  have hflags : t2.flags = s.flags := by simp only [t2, t1, State.flags_afterEA]
  simp only [aluMemMem]
  rw [bind_ok (predecPair_ok hsource hdest), readFlags_bind, hflags]
  exact writeResult_ok hstore

end Sys2Proof.Machine
end

section
/-! SUPPORT. The obligations on ADD to SUBX, on the logical instructions, the compares and the unary operations (R240 to
R251, R259 to R267, R290 to R298). -/

namespace Sys2Proof.Machine

/-- Settles O14: the four operations share one rule. -/
theorem aluToRegister : Obligations.AluToRegister := by
  unfold Obligations.AluToRegister
  intro s sz dn ea v hready hvalue t d
  have hrule (f : Alu) := aluToReg_ok hready hvalue f dn
  exact ⟨cycle_ok (hrule aluAdd), cycle_ok (hrule aluSub), cycle_ok (hrule aluAnd), cycle_ok (hrule aluOr)⟩

/-- Settles O15: the five operations share one rule. -/
theorem aluToLocation : Obligations.AluToLocation := by
  unfold Obligations.AluToLocation
  intro s sz dn ea d hready hvalue t loc v hstore
  have hrule (f : Alu) := aluToEa_ok hready hvalue hstore f dn
  exact ⟨cycle_ok (hrule aluAdd), cycle_ok (hrule aluSub), cycle_ok (hrule aluAnd), cycle_ok (hrule aluOr),
    cycle_ok (hrule aluEor)⟩

/-- Settles O16: the immediates share one rule, and so do the quick forms to a location; to An nothing can fail. -/
theorem aluImmediate : Obligations.AluImmediate := by
  unfold Obligations.AluImmediate
  refine ⟨?immediate, ?quick⟩
  case immediate =>
    intro s sz imm ea d s1 hfetch hready hvalue t loc hstore
    have hrule (f : Alu) := aluImm_ok (imm := imm) f hfetch hready hvalue hstore
    exact ⟨cycle_ok (hrule aluAdd), cycle_ok (hrule aluSub), cycle_ok (hrule aluAnd), cycle_ok (hrule aluOr),
      cycle_ok (hrule aluEor)⟩
  case quick =>
    intro s sz q k
    refine ⟨fun n => ⟨rfl, rfl⟩, ?_⟩
    intro ea d hea hready hvalue t loc hstore
    have hrule (f : Alu) (g : Word → Word → Word) := quickOp_ok hready hvalue hstore f g q hea
    exact ⟨cycle_ok (hrule aluAdd _), cycle_ok (hrule aluSub _)⟩

/-- Settles O17: a source extended to 32 bits, or for LEA the address without an access. -/
theorem addressResults : Obligations.AddressResults := by
  unfold Obligations.AddressResults
  intro s an ea
  refine ⟨fun sz v hready hvalue => ⟨?adda, ?suba, ?moveaW, ?moveaL⟩, ?lea⟩
  case adda => exact cycle_ok (addressOp_ok hready hvalue _ an)
  case suba => exact cycle_ok (addressOp_ok hready hvalue _ an)
  case moveaW =>
    rintro rfl
    exact cycle_ok (moveaRule_ok hready hvalue an)
  case moveaL =>
    rintro rfl
    exact cycle_ok (moveaRule_ok hready hvalue an)
  case lea =>
    intro hready
    exact cycle_ok (bind_ok (calcEA_ok hready))

/-- Settles O18: each rule reads its operands in order and then writes the flags. -/
theorem compares : Obligations.Compares := by
  unfold Obligations.Compares
  refine ⟨?source, ?immediate⟩
  case source =>
    intro s sz n m ea v d t
    refine ⟨fun hready hvalue => ?read, ?cmpm⟩
    case read =>
      have hsource := fetchEA_ok hready hvalue
      exact ⟨cycle_ok (bind_ok hsource), cycle_ok (bind_ok hsource), cycle_ok (bind_ok hsource)⟩
    case cmpm =>
      intro t1 hsource hdest t2
      exact cycle_ok ((bind_ok (fetchEA_ok (eaReady_postinc ..) hsource)).trans
        (bind_ok (fetchEA_ok (eaReady_postinc ..) hdest)))
  case immediate =>
    intro s sz imm ea d s1 hfetch hready hvalue t
    exact cycle_ok ((bind_ok (fetchImm_ok hfetch)).trans (bind_ok (fetchEA_ok hready hvalue)))

/-- Settles O19: between registers nothing can fail; in memory both share one rule, and X is that of the start. -/
theorem extendedArithmetic : Obligations.ExtendedArithmetic := by
  unfold Obligations.ExtendedArithmetic
  intro s sz x y c
  refine ⟨⟨rfl, rfl⟩, ?memory⟩
  intro v d t1 t2 loc hsource hdest hstore
  have hrule (f : Alu) := aluMemMem_ok f hsource hdest hstore
  exact ⟨cycle_ok (hrule aluAddX), cycle_ok (hrule aluSubX)⟩

/-- Settles O20: CLR computes its location and writes it; the others share one rule. -/
theorem unaryResults : Obligations.UnaryResults := by
  unfold Obligations.UnaryResults
  intro s sz ea t loc hready hstore
  refine ⟨cycle_ok ?clr, ?unary⟩
  case clr =>
    rw [bind_ok (calcEA_ok hready), bind_ok (writeEA_ok hstore), modifyFlags_run, State.flags_stored]
  case unary =>
    intro d hvalue c
    have hrule (f : Alu1) := aluUnary_ok hready hvalue hstore f
    exact ⟨cycle_ok (hrule aluNeg), cycle_ok (hrule aluNegX), cycle_ok (hrule aluNot)⟩

end Sys2Proof.Machine
end

section
/-! SUPPORT. Multiplication and division (R252 to R258, R268): the law of the signed quotient, the flags that a divide
leaves undefined, and the obligations on the instructions. -/

namespace Sys2Proof.Machine

/-! ## The quotient and the remainder (R252, R268) -/

/-- The remainder beside the quotient rounded toward zero. -/
theorem divSigned_snd (dividend : Word) (divisor : Half) :
    (divSigned dividend divisor).2 = Int.tmod dividend.toInt divisor.toInt := by
  rw [divSigned, Int.tmod_def, mul_comm]

theorem packDiv_quotient (rem quot : Half) : (packDiv rem quot).extractLsb' 0 16 = quot :=
  BitVec.extractLsb'_append_eq_right

theorem packDiv_remainder (rem quot : Half) : (packDiv rem quot).extractLsb' 16 16 = rem :=
  BitVec.extractLsb'_append_eq_left

/-- A word holds the integers of its range. -/
theorem toInt_ofInt_half {i : Int} (h1 : -32768 ≤ i) (h2 : i ≤ 32767) : (BitVec.ofInt 16 i).toInt = i :=
  BitVec.toInt_ofInt_eq_self (by decide) (by omega) (by omega)

/-- Settles O13: the remainder is that of the truncated division, smaller than the divisor and so within a word. -/
theorem signedDivisionLaw : Obligations.SignedDivisionLaw := by
  unfold Obligations.SignedDivisionLaw
  intro dividend divisor hdivisor q r
  have hr : r = Int.tmod dividend.toInt divisor.toInt := divSigned_snd dividend divisor
  have hne : divisor.toInt ≠ 0 := fun h => hdivisor (BitVec.toInt_inj.1 (h.trans BitVec.toInt_zero.symm))
  have hlt : r.natAbs < divisor.toInt.natAbs := by
    rw [hr, Int.natAbs_tmod]
    exact Nat.mod_lt _ (Int.natAbs_pos.2 hne)
  refine ⟨?law, hlt, ?nonneg, ?nonpos, fun hlow hhigh => ⟨?quotient, ?remainder⟩⟩
  case law => exact (add_sub_cancel _ _).symm
  case nonneg => exact fun h => hr ▸ Int.tmod_nonneg _ h
  case nonpos =>
    intro h
    have hneg := Int.tmod_nonneg divisor.toInt (Int.neg_nonneg_of_nonpos h)
    rw [Int.neg_tmod, ← hr] at hneg
    omega
  case quotient => rw [packDiv_quotient, toInt_ofInt_half hlow hhigh]
  case remainder =>
    have hmin : -32768 ≤ divisor.toInt := divisor.le_toInt
    have hmax : divisor.toInt < 32768 := divisor.toInt_lt
    rw [packDiv_remainder, toInt_ofInt_half (by omega) (by omega)]

/-! ## Flags that are left undefined (R193, R254) -/

/-- An undefined flag (R193): any value, the old one where undefined flags are unchanged. -/
theorem undefinedFlag_ok (old : Bool) (t : State) : ∃ (b : Bool) (k : Nat),
    undefinedFlag old t = .ok b { t with draws := k } ∧
    (t.cfg.undefinedFlags = .unchanged → b = old ∧ k = t.draws) := by
  cases h : t.cfg.undefinedFlags with
  | unchanged => exact ⟨old, t.draws, by simp only [undefinedFlag, h], fun _ => ⟨rfl, rfl⟩⟩
  | draw => exact ⟨Config.freeFlag t.draws, t.draws + 1, by simp only [undefinedFlag, h], nofun⟩

/-- The flags of a divisor of 0 (R254). -/
theorem divZeroFlags_ok (t : State) : ∃ (n z v : Bool) (k : Nat),
    divZeroFlags t = .ok ()
      (({ t with draws := k } : State).setFlags { t.flags with n := n, z := z, v := v, c := false }) ∧
    (t.cfg.undefinedFlags = .unchanged → n = t.flags.n ∧ z = t.flags.z ∧ v = t.flags.v ∧ k = t.draws) := by
  obtain ⟨n, kn, hn, hn'⟩ := undefinedFlag_ok t.flags.n t
  obtain ⟨z, kz, hz, hz'⟩ := undefinedFlag_ok t.flags.z { t with draws := kn }
  obtain ⟨v, kv, hv, hv'⟩ := undefinedFlag_ok t.flags.v { t with draws := kz }
  refine ⟨n, z, v, kv, ?_, fun h => ?_⟩
  · simp only [divZeroFlags, readFlags_bind]
    rw [bind_ok hn, bind_ok hz, bind_ok hv, writeFlags_run]
  · obtain ⟨rfl, rfl⟩ := hn' h
    obtain ⟨rfl, rfl⟩ := hz' h
    obtain ⟨rfl, rfl⟩ := hv' h
    exact ⟨rfl, rfl, rfl, rfl⟩

theorem divOverflowFlags_unchanged {t : State} (h : t.cfg.divOverflow = .unchanged) :
    divOverflowFlags t = .ok () t := by
  simp only [divOverflowFlags, h]

/-- The flags of a quotient overflow where they are those of the silicon (R254). -/
theorem divOverflowFlags_silicon {t : State} (h : t.cfg.divOverflow = .silicon) : ∃ (n z : Bool) (k : Nat),
    divOverflowFlags t = .ok ()
      (({ t with draws := k } : State).setFlags { t.flags with n := n, z := z, v := true, c := false }) ∧
    (t.cfg.undefinedFlags = .unchanged → n = t.flags.n ∧ z = t.flags.z ∧ k = t.draws) := by
  obtain ⟨n, kn, hn, hn'⟩ := undefinedFlag_ok t.flags.n t
  obtain ⟨z, kz, hz, hz'⟩ := undefinedFlag_ok t.flags.z { t with draws := kn }
  refine ⟨n, z, kz, ?_, fun hu => ?_⟩
  · simp only [divOverflowFlags, h, readFlags_bind]
    rw [bind_ok hn, bind_ok hz, writeFlags_run]
  · obtain ⟨rfl, rfl⟩ := hn' hu
    obtain ⟨rfl, rfl⟩ := hz' hu
    exact ⟨rfl, rfl, rfl⟩

/-! ## The rules -/

section
variable {s : State} {dn : RegNo} {ea : Ea} {v : Word} (hready : s.started.eaReady ea .w = true)
  (hvalue : s.started.operand ea .w = some v)
include hready hvalue

/-- MULS and MULU (R257, R258). -/
theorem mulRule_ok (f : Half → Half → Word) :
    let t := s.started.afterEA ea .w
    let p := f ((t.getD dn).setWidth 16) (v.setWidth 16)
    mulRule f dn ea s.started = .ok () ((t.setD dn p).setFlags (flagsLogic .l p t.flags)) :=
  bind_ok (fetchEA_ok hready hvalue)

/-- DIVS with a quotient that fits (R252). -/
theorem execDivs_fits (hv : v ≠ 0) :
    let t := s.started.afterEA ea .w
    let qr := divSigned (t.getD dn) (v.setWidth 16)
    ¬ (qr.1 < -32768 ∨ qr.1 > 32767) →
    execDivs dn ea s = .next (finish true s.pc
      ((t.setD dn (packDiv (BitVec.ofInt 16 qr.2) (BitVec.ofInt 16 qr.1))).setFlags
        (divFlags (decide (qr.1 < 0)) (decide (qr.1 = 0)) t.flags))) := by
  intro t qr hq
  refine cycle_ok ?_
  rw [bind_ok (fetchEA_ok hready hvalue), if_neg hv, readD_bind, if_neg hq]
  rfl

/-- DIVU with a quotient that fits (R253). -/
theorem execDivu_fits (hv : v ≠ 0) :
    let t := s.started.afterEA ea .w
    let q := (t.getD dn).toNat / v.toNat
    ¬ q > 0xFFFF →
    execDivu dn ea s = .next (finish true s.pc
      ((t.setD dn (packDiv (BitVec.ofNat 16 ((t.getD dn).toNat % v.toNat)) (BitVec.ofNat 16 q))).setFlags
        (divFlags (q.testBit 15) (decide (q = 0)) t.flags))) := by
  intro t q hq
  refine cycle_ok ?_
  rw [bind_ok (fetchEA_ok hready hvalue), if_neg hv, readD_bind, if_neg hq]
  rfl

/-- DIVS and DIVU with a quotient that does not fit write flags only (R252, R253). -/
theorem div_overflow {i : Instr} {u : State} (hv : v ≠ 0) :
    let t := s.started.afterEA ea .w
    let q := Int.tdiv (t.getD dn).toInt (v.setWidth 16).toInt
    (i = .divs dn ea ∧ (q < -32768 ∨ q > 32767)) ∨ (i = .divu dn ea ∧ (t.getD dn).toNat / v.toNat > 0xFFFF) →
    divOverflowFlags t = .ok () u → exec i s = .next (finish true s.pc u) := by
  rintro t q (⟨rfl, hq⟩ | ⟨rfl, hq⟩) hflags
  all_goals
    refine cycle_ok ?_
    rw [bind_ok (fetchEA_ok hready hvalue), if_neg hv, readD_bind]
    exact (congrFun (if_pos hq) t).trans hflags

/-- DIVS and DIVU by 0 write flags and raise (R252, R253). -/
theorem div_zero {i : Instr} {u : State} (hv : v = 0) (hi : i = .divs dn ea ∨ i = .divu dn ea)
    (hflags : divZeroFlags (s.started.afterEA ea .w) = .ok () u) :
    exec i s = .next (deliver .divisionByZero .execute s.pc u.counted) := by
  obtain rfl | rfl := hi
  all_goals
    refine cycle_exc (e := .divisionByZero) (t := u) ?_
    rw [bind_ok (fetchEA_ok hready hvalue), if_pos hv, bind_ok hflags, raise_run]

end

/-- Settles O21: one rule for the products, and the quotients by the branch that writes them. -/
theorem multiplyAndDivide : Obligations.MultiplyAndDivide := by
  unfold Obligations.MultiplyAndDivide
  refine ⟨fun s dn ea v hready hvalue => ⟨?muls, ?mulu⟩, fun s dn ea v hready hvalue hv => ⟨?divs, ?divu⟩⟩
  case muls => exact cycle_ok (mulRule_ok hready hvalue mulSigned)
  case mulu => exact cycle_ok (mulRule_ok hready hvalue mulUnsigned)
  case divs => exact fun hlow hhigh => execDivs_fits hready hvalue hv (by rw [divSigned]; omega)
  case divu => exact fun hq => execDivu_fits hready hvalue hv (Nat.not_lt.2 hq)

/-- Settles O22: the flags that each abnormal end leaves, by the parameters of R7. -/
theorem divideAbnormal : Obligations.DivideAbnormal := by
  unfold Obligations.DivideAbnormal
  intro s dn ea v i hready hvalue t q
  have hcfg : t.cfg = s.cfg := by simp only [t, State.afterEA_cfg, State.started_cfg]
  refine ⟨fun hv hi => ⟨fun hunchanged => ?unchanged, fun hsilicon => ?silicon⟩, fun hv hi => ?zero⟩
  case unchanged => exact div_overflow hready hvalue hv hi (divOverflowFlags_unchanged (hcfg ▸ hunchanged))
  case silicon =>
    obtain ⟨n, z, k, hflags, hundefined⟩ := divOverflowFlags_silicon (t := t) (hcfg ▸ hsilicon)
    exact ⟨n, z, k, div_overflow hready hvalue hv hi hflags, hcfg ▸ hundefined⟩
  case zero =>
    obtain ⟨n, z, f, k, hflags, hundefined⟩ := divZeroFlags_ok t
    exact ⟨n, z, f, k, div_zero hready hvalue hv hi hflags, hcfg ▸ hundefined⟩

end Sys2Proof.Machine
end

section
/-! SUPPORT. The shift function (R310): a shift by zero, the overflow of ASL as a change of the sign, and the rotates as
permutations of the bits; then the rules of the shift and rotate instructions (R311 to R326). -/

namespace Sys2Proof.Machine

/-! ## A shift by zero (R328) -/

theorem State.shiftCount_quick_ne_zero (s : State) (q : RegNo) : s.shiftCount (.quick q) ≠ 0 := by
  simp only [State.shiftCount]
  split
  case isTrue => decide
  case isFalse hq => exact fun hval => hq (Fin.ext hval)

theorem aluShift_zero (k : ShiftKind) (sz : Size) (d : Word) (f : Ccr) :
    aluShift k sz d 0 f = (d, flagsShift sz d (decide (k = .roxl ∨ k = .roxr) && f.x) false none f) := by
  simp only [aluShift, shift, if_pos, BitVec.ofNat_toNat, BitVec.setWidth_eq]

/-- Settles O10: no quick count is zero, and a shift by zero takes the first branch of R310. -/
theorem shiftByZero : Obligations.ShiftByZero := by
  unfold Obligations.ShiftByZero
  intro k sz d f s c
  refine ⟨s.shiftCount_quick_ne_zero c, Iff.rfl, ?_⟩
  rw [aluShift_zero]
  cases k <;> rfl

/-! ## The overflow of ASL (R310, R311) -/

/-- The sign bit once an operand is shifted left `k` places. -/
theorem testBit_msb_shiftLeft {w : Nat} (hw : 0 < w) (d k : Nat) :
    (d * 2 ^ k % 2 ^ w).testBit (w - 1) = (decide (k < w) && d.testBit (w - 1 - k)) := by
  have hk : k ≤ w - 1 ↔ k < w := by omega
  rw [Nat.testBit_mod_two_pow, Nat.testBit_mul_two_pow, decide_eq_true (Nat.sub_one_lt_of_lt hw), Bool.true_and,
    decide_eq_decide.2 hk]

/-- `n` bits from `lo` on are all `b`. -/
theorem bits_eq_iff (d lo n : Nat) (b : Bool) :
    d / 2 ^ lo % 2 ^ n = b.toNat * (2 ^ n - 1) ↔ ∀ i < n, d.testBit (i + lo) = b := by
  have hleft (i : Nat) : (d / 2 ^ lo % 2 ^ n).testBit i = (decide (i < n) && d.testBit (i + lo)) := by
    rw [Nat.testBit_mod_two_pow, Nat.testBit_div_two_pow]
  have hright (i : Nat) : (b.toNat * (2 ^ n - 1)).testBit i = (decide (i < n) && b) := by
    cases b <;> simp [Nat.testBit_two_pow_sub_one]
  constructor
  · intro h i hi
    have hbit := congrArg (Nat.testBit · i) h
    simpa only [hleft, hright, hi, decide_true, Bool.true_and] using hbit
  · intro h
    refine Nat.eq_of_testBit_eq fun i => ?_
    rw [hleft, hright]
    by_cases hi : i < n
    · rw [h i hi]
    · simp only [hi, decide_false, Bool.false_and]

theorem mixedBits_iff (d lo n : Nat) :
    mixedBits d lo n = true ↔ ∀ b : Bool, ∃ i < n, d.testBit (i + lo) ≠ b := by
  have hall (b : Bool) : (∃ i < n, d.testBit (i + lo) ≠ b) ↔ d / 2 ^ lo % 2 ^ n ≠ b.toNat * (2 ^ n - 1) := by
    rw [Ne, bits_eq_iff]
    push Not
    rfl
  simp [mixedBits, hall]

/-- ASL by less than the width: the bits shifted through the sign, and the sign, are not all equal. -/
theorem mixedBits_iff_sign_changes {w n : Nat} (hn : n < w) (d : Nat) : mixedBits d (w - 1 - n) (n + 1) = true ↔
    ∃ k ≤ n, (d * 2 ^ k % 2 ^ w).testBit (w - 1) ≠ d.testBit (w - 1) := by
  have hsign {k : Nat} (hk : k ≤ n) : (d * 2 ^ k % 2 ^ w).testBit (w - 1) = d.testBit (n - k + (w - 1 - n)) := by
    rw [testBit_msb_shiftLeft (by omega), decide_eq_true (by omega), Bool.true_and,
      show n - k + (w - 1 - n) = w - 1 - k by omega]
  rw [mixedBits_iff]
  constructor
  · intro h
    obtain ⟨i, hi, hbit⟩ := h (d.testBit (w - 1))
    refine ⟨n - i, n.sub_le i, ?_⟩
    rwa [hsign (n.sub_le i), Nat.sub_sub_self (by omega)]
  · rintro ⟨k, hk, hbit⟩ b
    rw [hsign hk] at hbit
    by_cases hb : d.testBit (w - 1) = b
    · exact ⟨n - k, by omega, hb ▸ hbit⟩
    · exact ⟨n, by omega, by rwa [show n + (w - 1 - n) = w - 1 by omega]⟩

/-- ASL by the width or more: a sign that is set ends as 0, and any other bit that is set passes through the sign. -/
theorem ne_zero_iff_sign_changes {w n d : Nat} (hw : 0 < w) (hd : d < 2 ^ w) (hn : w ≤ n) : d ≠ 0 ↔
    ∃ k ≤ n, (d * 2 ^ k % 2 ^ w).testBit (w - 1) ≠ d.testBit (w - 1) := by
  simp only [testBit_msb_shiftLeft hw]
  constructor
  · intro h
    obtain ⟨i, hi⟩ := Nat.exists_testBit_of_ne_zero h
    have hiw : i < w := by
      by_contra hge
      rw [Nat.testBit_lt_two_pow (hd.trans_le (Nat.pow_le_pow_right two_pos (not_lt.1 hge)))] at hi
      cases hi
    cases hsign : d.testBit (w - 1)
    case true => exact ⟨w, hn, by simp⟩
    case false =>
      refine ⟨w - 1 - i, by omega, ?_⟩
      rw [show w - 1 - (w - 1 - i) = i by omega, hi, decide_eq_true (by omega)]
      decide
  · rintro ⟨k, -, hbit⟩ rfl
    simp at hbit

theorem shift_asl_v_iff {w d n : Nat} (x : Bool) (hw : 0 < w) (hd : d < 2 ^ w) (hn : 0 < n) :
    (shift .asl w d n x).v = true ↔
      ∃ k ≤ n, (d * 2 ^ k % 2 ^ w).testBit (w - 1) ≠ d.testBit (w - 1) := by
  simp only [shift, if_neg hn.ne']
  by_cases hlt : n < w
  · rw [if_pos hlt, mixedBits_iff_sign_changes hlt]
  · rw [if_neg hlt, decide_eq_true_iff, ne_zero_iff_sign_changes hw hd (not_lt.1 hlt)]

/-! ## The rotates (R310, R315 to R318) -/

/-- Counting `n` places on from a place below `w` wraps at most once. -/
theorem add_mod_of_lt {w i : Nat} (hi : i < w) (n : Nat) :
    (i + n) % w = if w ≤ i + n % w then i + n % w - w else i + n % w := by
  rw [Nat.add_mod_eq_ite, Nat.mod_eq_of_lt hi]

section
variable {w d i : Nat} (hd : d < 2 ^ w) (hi : i < w)

include hd hi

/-- The top `j` bits of `w` come to the bottom, and the others move up. -/
theorem testBit_rotate {j : Nat} (hj : j ≤ w) : ((d * 2 ^ j + d / 2 ^ (w - j)) % 2 ^ w).testBit i =
    if i < j then d.testBit (i + (w - j)) else d.testBit (i - j) := by
  have hlow : d / 2 ^ (w - j) < 2 ^ j := Nat.div_lt_of_lt_mul (by rwa [← pow_add, Nat.sub_add_cancel hj])
  rw [Nat.testBit_mod_two_pow, decide_eq_true hi, Bool.true_and, mul_comm, Nat.testBit_two_pow_mul_add _ hlow,
    Nat.testBit_div_two_pow]

theorem testBit_rotateLeft (n : Nat) :
    ((d * 2 ^ (n % w) + d / 2 ^ (w - n % w)) % 2 ^ w).testBit ((i + n) % w) = d.testBit i := by
  have hw : 0 < w := by omega
  have hj : n % w < w := Nat.mod_lt _ hw
  rw [testBit_rotate hd (Nat.mod_lt (i + n) hw) hj.le, add_mod_of_lt hi]
  split
  · rw [if_pos (by omega), show i + n % w - w + (w - n % w) = i by omega]
  · rw [if_neg (by omega), Nat.add_sub_cancel]

/-- A rotate to the right is one to the left by the rest of the width. -/
theorem testBit_rotateRight (n : Nat) :
    ((d / 2 ^ (n % w) + d * 2 ^ (w - n % w)) % 2 ^ w).testBit i = d.testBit ((i + n) % w) := by
  have hj : n % w < w := Nat.mod_lt _ (by omega)
  have hrotate := testBit_rotate hd hi (Nat.sub_le w (n % w))
  rw [Nat.sub_sub_self hj.le] at hrotate
  rw [add_comm, hrotate, add_mod_of_lt hi]
  by_cases hwrap : w ≤ i + n % w
  · rw [if_neg (by omega), if_pos hwrap, show i - (w - n % w) = i + n % w - w by omega]
  · rw [if_pos (by omega), if_neg hwrap]

end

/-- A number one bit wider than `w` is its top bit and the rest. -/
theorem testBit_top_add_mod {w r : Nat} (hr : r < 2 ^ (w + 1)) : (r.testBit w).toNat * 2 ^ w + r % 2 ^ w = r := by
  have htop : r / 2 ^ w < 2 := Nat.div_lt_of_lt_mul hr
  rw [Nat.toNat_testBit, Nat.mod_eq_of_lt htop, Nat.div_add_mod']

/-- ROXL and ROXR rotate the operand with X on top of it, and give both parts back. -/
theorem shift_rox_joined {w n : Nat} (d : Nat) (x : Bool) (hn : 0 < n) :
    let e := x.toNat * 2 ^ w + d
    let j := n % (w + 1)
    let l := shift .roxl w d n x
    let r := shift .roxr w d n x
    l.c.toNat * 2 ^ w + l.res = (e * 2 ^ j + e / 2 ^ (w + 1 - j)) % 2 ^ (w + 1) ∧
    r.c.toNat * 2 ^ w + r.res = (e / 2 ^ j + e * 2 ^ (w + 1 - j)) % 2 ^ (w + 1) ∧
    l.xw = some l.c ∧ r.xw = some r.c := by
  have hlt (m : Nat) : m % 2 ^ (w + 1) < 2 ^ (w + 1) := Nat.mod_lt _ (Nat.two_pow_pos _)
  simp only [shift, if_neg hn.ne', and_true]
  exact ⟨testBit_top_add_mod (hlt _), testBit_top_add_mod (hlt _)⟩

theorem extend_lt {w d : Nat} (x : Bool) (hd : d < 2 ^ w) : x.toNat * 2 ^ w + d < 2 ^ (w + 1) := by
  have hx : x.toNat * 2 ^ w ≤ 1 * 2 ^ w := Nat.mul_le_mul_right _ x.toNat_le
  rw [pow_succ]
  omega

/-- Settles O11: V by the sign bits on the way, and each rotate by where the bits of a rotated number come from. -/
theorem shiftResults : Obligations.ShiftResults := by
  unfold Obligations.ShiftResults
  refine ⟨fun w d n x hw hd hn => shift_asl_v_iff x hw hd hn,
    fun w d n x hw hd hn => ⟨fun i hi => ?rotate, fun i hi => ?rotateWithX⟩⟩
  case rotate =>
    simp only [shift, if_neg hn.ne']
    exact ⟨testBit_rotateLeft hd hi n, testBit_rotateRight hd hi n⟩
  case rotateWithX =>
    intro e l r
    obtain ⟨hl, hr, hlx, hrx⟩ := shift_rox_joined d x hn
    have he : e < 2 ^ (w + 1) := extend_lt x hd
    have hiw : i < w + 1 := Nat.lt_succ_of_le hi
    exact ⟨hl ▸ testBit_rotateLeft he hiw n, hr ▸ testBit_rotateRight he hiw n, hlx, hrx⟩

/-! ## The instructions (R311 to R326) -/

theorem readCount_run (c : ShiftCount) (s : State) : readCount c s = .ok (s.shiftCount c) s := by
  cases c <;> rfl

theorem shiftRegRule_ok (k : ShiftKind) (sz : Size) (c : ShiftCount) (dn : RegNo) (s : State) :
    let o := aluShift k sz (sz.trunc (s.getD dn)) (s.shiftCount c) s.flags
    shiftRegRule k sz c dn s = .ok () ((s.setDSized sz dn o.1).setFlags o.2) :=
  bind_ok (readCount_run c s)

/-- A memory shift is a unary operation on a word. -/
theorem shiftMemRule_eq (k : ShiftKind) (ea : Ea) :
    shiftMemRule k ea = aluUnary (fun sz d f => aluShift k sz d 1 f) .w ea := rfl

/-- Settles O24: the eight kinds share one rule on registers and one on memory. -/
theorem shifts : Obligations.Shifts := by
  unfold Obligations.Shifts
  refine ⟨?register, ?memory⟩
  case register =>
    intro s sz c dn result
    have hrule (ts : List Target) (k : ShiftKind) : cycle ts (shiftRegRule k sz c dn) s = result k :=
      cycle_ok (shiftRegRule_ok k sz c dn s.started)
    exact ⟨hrule _ .asl, hrule _ .asr, hrule _ .lsl, hrule _ .lsr, hrule _ .rol, hrule _ .ror, hrule _ .roxl,
      hrule _ .roxr⟩
  case memory =>
    intro s ea d hready hvalue t loc hstore result
    have hrule (ts : List Target) (k : ShiftKind) : cycle ts (shiftMemRule k ea) s = result k :=
      cycle_ok (aluUnary_ok hready hvalue hstore fun sz d f => aluShift k sz d 1 f)
    exact ⟨hrule _ .asl, hrule _ .asr, hrule _ .lsl, hrule _ .lsr, hrule _ .rol, hrule _ .ror, hrule _ .roxl,
      hrule _ .roxr⟩

end Sys2Proof.Machine
end

section
/-! SUPPORT. The bit instructions and TAS (R340 to R346): where the bit number comes from, the read that sets Z, and the
write-back. -/

namespace Sys2Proof.Machine

/-- Whether a location can be written does not depend on the flags. -/
@[simp] theorem State.canStore_setFlags (s : State) (f : Ccr) (loc : Loc) (sz : Size) :
    (s.setFlags f).canStore loc sz = s.canStore loc sz := by
  cases loc <;> simp only [State.canStore, State.setFlags_cfg]

/-! ## The bit number (R340) -/

/-- The static forms, when the bit number's word can be fetched. -/
theorem staticBit_ok {s : State} (hfetch : s.canFetch 1 = true) (bit : Byte) (k : Nat → Op Unit) :
    staticBit bit k s = k bit.toNat (s.skip 1) :=
  bind_ok (fetchExt_ok_of_canFetch hfetch)

theorem dynamicBit_run (dn : RegNo) (k : Nat → Op Unit) (s : State) :
    dynamicBit dn k s = k (s.getD dn).toNat s := readD_bind ..

/-! ## The bit (R341 to R344) -/

/-- The state after the tested bit is read and Z written: `v` is the operand. -/
def State.bitTested (s : State) (ea : Ea) (n : Nat) (v : Word) : State :=
  let t := s.afterEA ea (bitSize ea)
  t.setFlags (flagsBit (v.getLsbD (bitIndex ea n)) t.flags)

section
variable {s : State} {ea : Ea} {v : Word} (hready : s.eaReady ea (bitSize ea) = true)
  (hvalue : s.operand ea (bitSize ea) = some v)
include hready hvalue

theorem bitTest_ok (n : Nat) :
    bitTest n ea s = .ok (s.eaLoc ea (bitSize ea), v) (s.bitTested ea n v) :=
  bind_ok (openEA_ok hready hvalue)

theorem bitOnly_ok (n : Nat) : bitOnly n ea s = .ok () (s.bitTested ea n v) :=
  bind_ok (bitTest_ok hready hvalue n)

theorem bitWrite_ok (hstore : (s.afterEA ea (bitSize ea)).canStore (s.eaLoc ea (bitSize ea)) (bitSize ea) = true)
    (f : Word → Word → Word) (n : Nat) :
    bitWrite f n ea s = .ok () ((s.bitTested ea n v).stored (s.eaLoc ea (bitSize ea)) (bitSize ea)
      (f v (bitMask (bitIndex ea n)))) :=
  (bind_ok (bitTest_ok hready hvalue n)).trans
    (writeEA_ok ((State.canStore_setFlags ..).trans hstore))

end

/-! ## TAS (R346) -/

theorem execTas_ok {s : State} {ea : Ea} {v : Word} (hready : s.started.eaReady ea .b = true)
    (hvalue : s.started.operand ea .b = some v) :
    let t := s.started.afterEA ea .b
    let loc := s.started.eaLoc ea .b
    t.canStore loc .b = true →
    exec (.tas ea) s =
      .next (finish true s.pc ((t.setFlags (flagsLogic .b v t.flags)).stored loc .b (v ||| 0x80))) := by
  intro t loc hstore
  refine cycle_ok ?_
  rw [bind_ok (openEA_ok hready hvalue), modifyFlags_bind]
  exact writeEA_ok ((State.canStore_setFlags ..).trans hstore)

/-! ## The obligation -/

/-- The cycles of all bit instructions: `numbered` is the form, static or dynamic, that goes on with the bit number
`number` in `s1`. -/
theorem bitCycles_ok {s s1 : State} {ea : Ea} {v : Word} {number : Nat} {numbered : (Nat → Op Unit) → Op Unit}
    (hnumber : ∀ k, numbered k s.started = k number s1) (hready : s1.eaReady ea (bitSize ea) = true)
    (hvalue : s1.operand ea (bitSize ea) = some v) :
    let sz := bitSize ea
    let loc := s1.eaLoc ea sz
    let u := s1.bitTested ea number v
    (∀ ts, cycle ts (numbered fun n => bitOnly n ea) s = .next (finish true s.pc u)) ∧
    ((s1.afterEA ea sz).canStore loc sz = true → ∀ ts f, cycle ts (numbered fun n => bitWrite f n ea) s =
      .next (finish true s.pc (u.stored loc sz (f v (bitMask (bitIndex ea number)))))) :=
  ⟨fun _ => cycle_ok ((hnumber _).trans (bitOnly_ok hready hvalue number)),
    fun hstore _ f => cycle_ok ((hnumber _).trans (bitWrite_ok hready hvalue hstore f number))⟩

/-- Settles O25: the static and the dynamic forms differ in where the bit number comes from, and the three that write
back share one rule. -/
theorem bitInstructions : Obligations.BitInstructions := by
  unfold Obligations.BitInstructions
  refine ⟨?bits, fun s ea v hready hvalue hstore => execTas_ok hready hvalue hstore⟩
  intro s dn bit ea v dynamic s1 number sz k t loc u hfetch hready hvalue
  cases dynamic with
  | false =>
    obtain ⟨htest, hwrite⟩ := bitCycles_ok (staticBit_ok (hfetch rfl) bit) hready hvalue
    exact ⟨htest _, fun hstore => ⟨hwrite hstore _ bitChange, hwrite hstore _ bitClear, hwrite hstore _ bitSet⟩⟩
  | true =>
    obtain ⟨htest, hwrite⟩ := bitCycles_ok (dynamicBit_run dn · s.started) hready hvalue
    exact ⟨htest _, fun hstore => ⟨hwrite hstore _ bitChange, hwrite hstore _ bitClear, hwrite hstore _ bitSet⟩⟩

end Sys2Proof.Machine
end

section
/-! SUPPORT. Decimal digits and the BCD instructions (R360 to R368): addition and subtraction on bytes of two decimal
digits, the flags that a decimal result leaves undefined, and the rules of ABCD, SBCD and NBCD. -/

namespace Sys2Proof.Machine

/-! ## Decimal digits (R360, R361) -/

/-- The byte of the last two decimal digits of a number. -/
def decimalByte (n : Nat) : Byte := BitVec.ofNat 8 (16 * (n / 10 % 10) + n % 10)

theorem toNat_decimalByte (n : Nat) : (decimalByte n).toNat = 16 * (n / 10 % 10) + n % 10 := by
  rw [decimalByte, BitVec.toNat_ofNat]
  omega

theorem validDecimal_decimalByte (n : Nat) : validDecimal (decimalByte n) = true := by
  rw [validDecimal, decide_eq_true_iff, toNat_decimalByte]
  omega

theorem decimalValue_decimalByte (n : Nat) : decimalValue (decimalByte n) = n % 100 := by
  rw [decimalValue, toNat_decimalByte]
  omega

/-- The integer that a digit algorithm answers, where its nibbles are the last two digits of `n`. -/
theorem ofInt_eq_decimalByte {t : Int} {n : Nat} (h : t = 16 * (n / 10 % 10) + n % 10) :
    BitVec.ofInt 8 t = decimalByte n := by
  have hcast : t = ((16 * (n / 10 % 10) + n % 10 : Nat) : Int) := by omega
  rw [hcast, BitVec.ofInt_natCast, decimalByte]

section
variable {a b : Byte} (ha : validDecimal a = true) (hb : validDecimal b = true) (x : Bool)
include ha hb

/-- `BcdAdd` (R360): the low digits carry past 9, and both digits past 0x99. -/
theorem bcdAdd_of_valid :
    let sum := decimalValue b + decimalValue a + x.toNat
    bcdAdd a b x = (decimalByte sum, decide (sum ≥ 100)) := by
  intro sum
  obtain ⟨ha1, ha2⟩ := of_decide_eq_true ha
  obtain ⟨hb1, hb2⟩ := of_decide_eq_true hb
  have hx := x.toNat_le
  have hsum : sum = 10 * (b.toNat / 16) + b.toNat % 16 + (10 * (a.toNat / 16) + a.toNat % 16) + x.toNat := rfl
  refine Prod.ext (ofInt_eq_decimalByte ?value) (decide_eq_decide.2 ?carry)
  case value =>
    simp only [decide_eq_true_eq]
    split_ifs <;> omega
  case carry => split_ifs <;> omega

/-- `BcdSub` (R361): the low digits borrow below 0, and both digits likewise. -/
theorem bcdSub_of_valid :
    let take := decimalValue a + x.toNat
    bcdSub a b x = (decimalByte (decimalValue b + 200 - take), decide (decimalValue b < take)) := by
  intro take
  obtain ⟨ha1, ha2⟩ := of_decide_eq_true ha
  obtain ⟨hb1, hb2⟩ := of_decide_eq_true hb
  have hx := x.toNat_le
  have htake : take = 10 * (a.toNat / 16) + a.toNat % 16 + x.toNat := rfl
  have hvalue : decimalValue b = 10 * (b.toNat / 16) + b.toNat % 16 := rfl
  refine Prod.ext (ofInt_eq_decimalByte ?value) (decide_eq_decide.2 ?borrow)
  case value =>
    simp only [decide_eq_true_eq]
    split_ifs <;> omega
  case borrow => split_ifs <;> omega

end

/-- Settles O12: both operations give the byte of the last two digits of a number. -/
theorem decimalArithmetic : Obligations.DecimalArithmetic := by
  unfold Obligations.DecimalArithmetic
  intro a b x ha hb sum take
  rw [bcdAdd_of_valid ha hb, bcdSub_of_valid ha hb]
  exact ⟨validDecimal_decimalByte _, decimalValue_decimalByte _, rfl, validDecimal_decimalByte _,
    decimalValue_decimalByte _, rfl⟩

/-! ## The flags (R367) -/

/-- The flags of a decimal result. -/
theorem bcdFlags_ok (res : Byte) (c : Bool) (u : State) : ∃ (n v : Bool) (k : Nat),
    bcdFlags res c u = .ok () (({ u with draws := k } : State).setFlags
      { x := c, n := n, z := if res = 0 then u.flags.z else false, v := v, c := c }) ∧
    (u.cfg.undefinedFlags = .unchanged → n = u.flags.n ∧ v = u.flags.v ∧ k = u.draws) := by
  obtain ⟨n, kn, hn, hn'⟩ := undefinedFlag_ok u.flags.n u
  obtain ⟨v, kv, hv, hv'⟩ := undefinedFlag_ok u.flags.v { u with draws := kn }
  refine ⟨n, v, kv, ?_, fun h => ?_⟩
  · simp only [bcdFlags, readFlags_bind]
    rw [bind_ok hn, bind_ok hv, writeFlags_run]
  · obtain ⟨rfl, rfl⟩ := hn' h
    obtain ⟨rfl, rfl⟩ := hv' h
    exact ⟨rfl, rfl, rfl⟩

/-- A cycle whose rule goes on to `BcdFlags` in a state with the flags and the parameters of the start. -/
theorem decimalCycle_ok {s u : State} {ts : List Target} {rule : Op Unit} {o : Byte × Bool}
    (hrule : rule s.started = bcdFlags o.1 o.2 u) (hflags : u.flags = s.flags) (hcfg : u.cfg = s.cfg) :
    ∃ (n v : Bool) (k : Nat),
      cycle ts rule s = .next (finish true s.pc (({ u with draws := k } : State).setFlags
        { x := o.2, n := n, z := if o.1 = 0 then s.flags.z else false, v := v, c := o.2 })) ∧
      (s.cfg.undefinedFlags = .unchanged → n = s.flags.n ∧ v = s.flags.v ∧ k = u.draws) := by
  obtain ⟨n, v, k, hend, hundefined⟩ := bcdFlags_ok o.1 o.2 u
  rw [hflags, hcfg] at hundefined
  rw [hflags] at hend
  exact ⟨n, v, k, cycle_ok (hrule.trans hend), hundefined⟩

/-! ## The rules (R362 to R366) -/

theorem setWidth_trunc_byte (v : Word) : (Size.b.trunc v).setWidth 8 = v.setWidth 8 :=
  BitVec.setWidth_and.trans BitVec.and_allOnes

/-- The register form (R362, R364), up to its flags. -/
theorem bcdRegReg_run (f : BcdOp) (dx dy : RegNo) (t : State) :
    let o := f ((t.getD dy).setWidth 8) ((t.getD dx).setWidth 8) t.flags.x
    bcdRegReg f dx dy t = bcdFlags o.1 o.2 (t.setDSized .b dx (o.1.setWidth 32)) := by
  simp only [bcdRegReg, readDSized_bind, readFlags_bind, writeDSized_bind, setWidth_trunc_byte]

/-- The memory form (R363, R365), up to its flags: neither decrement writes one. -/
theorem bcdMemMem_ok {s : State} {ax ay : RegNo} {v d : Word} (f : BcdOp)
    (hsource : s.operand (.predec ay) .b = some v) :
    let t1 := s.afterEA (.predec ay) .b
    let t2 := t1.afterEA (.predec ax) .b
    let loc := t1.eaLoc (.predec ax) .b
    let o := f (v.setWidth 8) (d.setWidth 8) s.flags.x
    t1.operand (.predec ax) .b = some d → t2.canStore loc .b = true →
    bcdMemMem f ax ay s = bcdFlags o.1 o.2 (t2.stored loc .b (o.1.setWidth 32)) := by
  intro t1 t2 loc o hdest hstore
  have hflags : t2.flags = s.flags := by simp only [t2, t1, State.flags_afterEA]
  simp only [bcdMemMem]
  rw [bind_ok (predecPair_ok hsource hdest), readFlags_bind, hflags, bind_ok (writeEA_ok hstore)]

/-- Settles O26: each form ends in `BcdFlags`, with flags and parameters as at its start. -/
theorem decimalInstructions : Obligations.DecimalInstructions := by
  unfold Obligations.DecimalInstructions
  rintro s x y ea i u o (⟨hop, rfl⟩ | ⟨v, d, hsource, hdest, hstore, hop, rfl⟩ |
    ⟨d, hready, hvalue, hstore, rfl, rfl, rfl⟩)
  case inl =>
    have hends (f : BcdOp) (ts : List Target) := decimalCycle_ok (ts := ts) (bcdRegReg_run f x y s.started)
      (State.flags_setDSized ..) (State.setDSized_cfg ..)
    obtain ⟨rfl, rfl⟩ | ⟨rfl, rfl⟩ := hop
    · exact hends bcdAdd _
    · exact hends bcdSub _
  case inr.inl =>
    have hends (f : BcdOp) (ts : List Target) := decimalCycle_ok (s := s) (ts := ts)
      (bcdMemMem_ok f hsource hdest hstore) (by simp) (by simp)
    obtain ⟨rfl, rfl⟩ | ⟨rfl, rfl⟩ := hop
    · exact hends bcdAdd _
    · exact hends bcdSub _
  case inr.inr =>
    refine decimalCycle_ok ?rule (by simp) (by simp)
    rw [bind_ok (openEA_ok hready hvalue), readFlags_bind, State.flags_afterEA, State.flags_started,
      bind_ok (writeEA_ok hstore)]

end Sys2Proof.Machine
end

section
/-! SUPPORT. The obligations on program control (R370 to R379, R383): the displacement of a branch and its target, and
what the jumps and the returns leave on the stack. -/

namespace Sys2Proof.Machine

/-! ## The program counter and the stack pointer -/

theorem Model.atLeast10_iff {m : Model} : m.atLeast10 = true ↔ m ≠ .mc68000 := by
  cases m <;> simp [Model.atLeast10]

/-- A write of A7 and the fetch of words commute. -/
theorem State.setSP_skip (s : State) (n : Nat) (v : Word) : (s.skip n).setSP v = (s.setSP v).skip n := by
  have hstack : (s.skip n).activeStack = s.activeStack := rfl
  simp only [State.setSP, hstack]
  cases s.activeStack with
  | usp | isp | msp => rfl

/-- What memory holds does not depend on `pc`. -/
theorem State.valueAt_skip (s : State) (n : Nat) (fc : FC) (a : Word) (sz : Size) :
    (s.skip n).valueAt (.mem fc a) sz = s.valueAt (.mem fc a) sz :=
  State.valueAt_mem_congr (s.skip_cfg n) (s.skip_mem n) fc a sz

/-! ## JMP and JSR (R375, R376) -/

section
variable {s : State} {ea : Ea} (hready : s.started.eaReady ea .l = true)
include hready

theorem execJmp_ok : execJmp ea s = .next (finish true s.pc
    { s.started.afterEA ea .l with pc := (s.started.eaLoc ea .l).addr }) :=
  cycle_ok (bind_ok (calcEA_ok hready))

theorem execJsr_ok :
    let t := s.started.afterEA ea .l
    t.canPush = true →
    execJsr ea s = .next (finish true s.pc { t.pushed t.pc with pc := (s.started.eaLoc ea .l).addr }) := by
  intro t hpush
  refine cycle_ok ?_
  rw [bind_ok (calcEA_ok hready), readPC_bind]
  exact bind_ok (pushLong_ok hpush)

end

/-! ## RTS, RTD and RTR (R377 to R379) -/

section
variable {s : State} {v : Word}

theorem execRts_ok (hvalue : s.started.valueAt (.mem s.dataFC s.getSP) .l = some v) :
    execRts s = .next (finish true s.pc { s.started.setSP (s.getSP + 4) with pc := v }) :=
  cycle_ok (bind_ok (popLong_ok hvalue))

theorem execRtd_ok {d : Half} (hvalue : s.started.valueAt (.mem s.dataFC s.getSP) .l = some v)
    (hmodel : s.cfg.model ≠ .mc68000) (hfetch : s.started.canFetch 1 = true) :
    execRtd d s = .next (finish true s.pc { s.started.setSP (s.getSP + 4 + d.signExtend 32) with pc := v }) := by
  have h10 : s.started.cfg.model.atLeast10 = true := Model.atLeast10_iff.2 hmodel
  have hread : memRead s.getSP 4 (s.started.skip 1) = .ok v (s.started.skip 1) :=
    memRead_ok_of_valueAt ((State.valueAt_skip ..).trans hvalue)
  refine cycle_ok ?_
  rw [bind_ok (from68010_ok h10), bind_ok (fetchExt_ok_of_canFetch hfetch), readSP_bind]
  refine (bind_ok hread).trans ?_
  rw [writeSP_bind, writePC_run, State.setSP_skip]
  rfl

/-- RTR: the word of the CCR, then the long of the target (R378). -/
theorem execRtr_ok {c : Word} (hccr : s.started.valueAt (.mem s.dataFC s.getSP) .w = some c)
    (hvalue : s.started.valueAt (.mem s.dataFC (s.getSP + 2)) .l = some v) :
    execRtr s = .next (finish true s.pc
      { (s.started.setSP (s.getSP + 6)).setCCR (c.setWidth 8) with pc := v }) := by
  let t := s.started.setSP (s.getSP + 2)
  have hread : memRead s.getSP 2 s.started = .ok c s.started := memRead_ok_of_valueAt hccr
  have htarget : t.valueAt (.mem t.dataFC t.getSP) .l = some v := by
    rw [State.getSP_setSP, State.dataFC_setSP, State.valueAt_mem_congr (State.setSP_cfg ..) (State.setSP_mem ..)]
    exact hvalue
  have hpop := popLong_ok htarget
  have hsp : s.getSP + 2 + 4 = s.getSP + 6 := BitVec.add_assoc s.getSP 2 4
  rw [State.getSP_setSP, State.setSP_setSP, hsp] at hpop
  refine cycle_ok ?_
  rw [readSP_bind]
  exact (bind_ok hread).trans (bind_ok hpop)

end

/-- Settles O32: the two jumps share the address, and the returns pop what stands at A7. -/
theorem jumpsAndReturns : Obligations.JumpsAndReturns := by
  unfold Obligations.JumpsAndReturns
  intro s
  exact ⟨fun ea hready => ⟨execJmp_ok hready, execJsr_ok hready⟩,
    fun v hvalue => ⟨execRts_ok hvalue, fun d => execRtd_ok hvalue⟩,
    fun c v => execRtr_ok⟩

/-! ## Bcc, BRA and BSR (R370 to R372) -/

theorem BranchDisp.isFF_iff {d : BranchDisp} : d.isFF = true ↔ d = .short 0xFF := by
  cases d <;> simp [BranchDisp.isFF]

/-- Only the displacement byte 0xFF on mc68020 is refused (R382). -/
theorem refuse32_ok_of_not {s : State} {d : BranchDisp} (h : ¬ (s.cfg.model = .mc68020 ∧ d = .short 0xFF)) :
    refuse32 d s = .ok () s := by
  refine refuse32_ok ?_
  rwa [Bool.not_eq_true', Bool.eq_false_iff, Ne, Bool.and_eq_true, Model.is20_iff, BranchDisp.isFF_iff]

section
variable {s : State} {d : BranchDisp} (hfetch : s.canFetch (branchWords d) = true)
include hfetch

theorem readDisp_ok : readDisp d s = .ok (branchOffset d) (s.skip (branchWords d)) := by
  cases d with
  | short b =>
    rw [branchWords, State.skip_zero]
    rfl
  | word w => exact bind_ok (fetchExt_ok_of_canFetch hfetch)

theorem branchRule_ok (c : Cond) :
    let t := s.skip (branchWords d)
    branchRule c d s = .ok () (if condTest c s.flags then { t with pc := s.pc + branchOffset d } else t) := by
  intro t
  rw [branchRule, readPC_bind, bind_ok (readDisp_ok hfetch), readCond_bind, State.flags_skip]
  cases condTest c s.flags with
  | true | false => rfl

theorem bsrRule_ok :
    let t := s.skip (branchWords d)
    t.canPush = true → bsrRule d s = .ok () { t.pushed t.pc with pc := s.pc + branchOffset d } := by
  intro t hpush
  rw [bsrRule, readPC_bind, bind_ok (readDisp_ok hfetch), readPC_bind]
  exact bind_ok (pushLong_ok hpush)

end

/-! ## DBcc and Scc (R373, R374) -/

/-- The low word of a difference depends on the low word of what is subtracted from. -/
theorem Size.trunc_trunc_sub (sz : Size) (u v : Word) : sz.trunc (sz.trunc u - v) = sz.trunc (u - v) := by
  rw [BitVec.sub_eq_add_neg, BitVec.sub_eq_add_neg, Size.trunc_trunc_add]

theorem execDbcc_ok {s : State} {c : Cond} {n : RegNo} {d : Half} (hfetch : s.started.canFetch 1 = true) :
    let t := s.started.skip 1
    let cnt := Size.w.trunc (s.getD n - 1)
    let u := t.setDSized .w n cnt
    execDbcc c n d s = .next (finish true s.pc
      (if condTest c s.flags then t
        else if cnt = 0xFFFF then u else { u with pc := s.pc + 2 + d.signExtend 32 })) := by
  intro t cnt u
  have hcnt : Size.w.trunc (Size.w.trunc (t.getD n) - 1) = cnt := Size.trunc_trunc_sub ..
  refine cycle_ok ?_
  rw [readPC_bind, bind_ok (fetchExt_ok_of_canFetch hfetch), readCond_bind, State.flags_skip, State.flags_started]
  cases condTest c s.flags with
  | true => rfl
  | false =>
    simp only [Bool.false_eq_true, if_false, readDSized_bind, writeDSized_bind]
    rw [hcnt]
    split
    · rfl
    · rfl

theorem execScc_ok {s : State} {c : Cond} {ea : Ea} (hready : s.started.eaReady ea .b = true) :
    let t := s.started.afterEA ea .b
    let loc := s.started.eaLoc ea .b
    t.canStore loc .b = true →
    execScc c ea s = .next (finish true s.pc (t.stored loc .b (if condTest c s.flags then 0xFF else 0))) := by
  intro t loc hstore
  refine cycle_ok ?_
  rw [bind_ok (calcEA_ok hready), readCond_bind, State.flags_afterEA, State.flags_started]
  exact writeEA_ok hstore

/-- Settles O33: the branches share the displacement, BRA as the branch whose condition is always true. -/
theorem branches : Obligations.Branches := by
  unfold Obligations.Branches
  intro s
  refine ⟨?displaced, fun c n d => execDbcc_ok, fun c ea => execScc_ok, ?nop⟩
  case displaced =>
    intro c d t target hfetch hbyte
    have hrefuse : refuse32 d s.started = .ok () s.started := refuse32_ok_of_not hbyte
    exact ⟨cycle_ok ((bind_ok hrefuse).trans (branchRule_ok hfetch c)),
      cycle_ok ((bind_ok hrefuse).trans (branchRule_ok hfetch .t)),
      fun hpush => cycle_ok ((bind_ok hrefuse).trans (bsrRule_ok hfetch hpush))⟩
  case nop => exact cycle_ok (ts := []) (pure_run () s.started)

end Sys2Proof.Machine
end

section
/-! SUPPORT. Taking an exception case by case (R458, R461): the entry, the frame, the vector and the handler, each with
what it leaves when it fails, and what a delivery leaves alone however it ends. -/

namespace Sys2Proof.Machine

/-! ## What an access and a write of A7 depend on -/

section
variable (s : State)

theorem State.setSP_getSP : s.setSP s.getSP = s := by
  unfold State.setSP State.getSP
  cases s.activeStack with
  | usp | isp | msp => rfl

/-- A write of A7, field by field (R33). -/
theorem State.setSP_eq (v : Word) : s.setSP v = { s with
    usp := if s.activeStack = .usp then v else s.usp
    isp := if s.activeStack = .isp then v else s.isp
    msp := if s.activeStack = .msp then v else s.msp } := by
  unfold State.setSP
  cases s.activeStack with
  | usp | isp | msp => rfl

/-! A write of A7 commutes with what writes neither a stack pointer nor the selection. -/

theorem State.setSP_withMem (v : Word) (m : Memory) :
    ({ s with mem := m } : State).setSP v = { s.setSP v with mem := m } := by
  rw [State.setSP_eq, State.setSP_eq]
  rfl

theorem State.setSP_withDraws (v : Word) (k : Nat) :
    ({ s with draws := k } : State).setSP v = { s.setSP v with draws := k } := by
  rw [State.setSP_eq, State.setSP_eq]
  rfl

theorem State.setSP_withCode (v p : Word) (w : Half) :
    ({ s with pc := p, opcode := w } : State).setSP v = { s.setSP v with pc := p, opcode := w } := by
  rw [State.setSP_eq, State.setSP_eq]
  rfl

/-- A value in memory depends on its bytes alone. -/
theorem State.bytesAt_congr {s t : State} {fc : FC} {a : Word} {n : Nat}
    (h : ∀ k < n, t.byteAt fc (a + BitVec.ofNat 32 k) = s.byteAt fc (a + BitVec.ofNat 32 k)) :
    t.bytesAt fc a n = s.bytesAt fc a n := by
  induction n generalizing a with
  | zero => rfl
  | succ n ih =>
    have hfirst : t.byteAt fc a = s.byteAt fc a := by simpa using h 0 (by omega)
    have hrest : t.bytesAt fc (a + 1) n = s.bytesAt fc (a + 1) n := ih fun k hk => by
      have hadd : a + 1 + BitVec.ofNat 32 k = a + BitVec.ofNat 32 (k + 1) := by
        rw [BitVec.add_assoc, Nat.add_comm k 1, BitVec.ofNat_add]
        rfl
      rw [hadd]
      exact h (k + 1) (by omega)
    rw [State.bytesAt, State.bytesAt, hfirst, hrest]

theorem State.bytesAt_mem_congr {s t : State} (hcfg : t.cfg = s.cfg) (hmem : t.mem = s.mem) (fc : FC) (a : Word)
    (n : Nat) : t.bytesAt fc a n = s.bytesAt fc a n :=
  State.bytesAt_congr fun _ _ => by rw [State.byteAt, State.byteAt, hcfg, hmem]

/-- The host's answer depends on the parameters, the bytes and the count of calls alone. -/
theorem State.memGet_congr {s t : State} (hcfg : t.cfg = s.cfg) (hmem : t.mem = s.mem) (hdraws : t.draws = s.draws)
    (fc : FC) (a : Word) (n : Nat) : t.memGet fc a n = s.memGet fc a n := by
  unfold State.memGet State.reply
  rw [hcfg, hdraws, State.bytesAt_mem_congr hcfg hmem]

theorem State.memGet_setSP (v : Word) (fc : FC) (a : Word) (n : Nat) : (s.setSP v).memGet fc a n = s.memGet fc a n :=
  State.memGet_congr (s.setSP_cfg v) (s.setSP_mem v) (s.setSP_draws v) fc a n

theorem State.called_setSP (v : Word) (fc : FC) (a : Word) (n : Nat) :
    (s.setSP v).called fc a n = (s.called fc a n).setSP v := by
  have hown := congrArg (touches ·.mem.own fc a n) (s.setSP_cfg v)
  by_cases h : touches s.cfg.mem.own fc a n = true
  · rw [State.called, State.called, if_pos h, if_pos (hown.trans h), State.setSP_draws]
    exact (s.setSP_withDraws v (s.draws + 1)).symm
  · rw [State.called, State.called, if_neg h, if_neg fun h' => h (hown.symm.trans h')]

theorem State.vbrEff_congr {s t : State} (hcfg : t.cfg = s.cfg) (hvbr : t.vbr = s.vbr) : t.vbrEff = s.vbrEff := by
  rw [State.vbrEff, State.vbrEff, hcfg, hvbr]

end

/-! ## The entry (R458 (b)) -/

section
variable (s : State)

theorem State.entered_supervisor : s.entered.supervisor = true := by
  rw [State.supervisor, State.entered, State.setSR_supervisor]
  simp

end

/-! ## The writes of the frame (R459) -/

theorem State.putFields_only (s : State) (fs : List (Word × Nat × Word)) :
    ∃ m k, (s.putFields fs).2 = { s with mem := m, draws := k } := by
  induction fs generalizing s with
  | nil => exact ⟨_, _, rfl⟩
  | cons f fs ih =>
    obtain ⟨a, n, v⟩ := f
    unfold State.putFields
    split
    · obtain ⟨k, hk⟩ := s.called_only_draws 5 a n
      exact ⟨_, k, by rw [hk]⟩
    next t ht =>
      have hput : ∃ m k, t = { s with mem := m, draws := k } := by
        rcases State.memPut_cases ht with rfl | rfl
        · obtain ⟨m, hm⟩ := s.putBytes_only_mem 5 a v n
          exact ⟨m, _, hm⟩
        · obtain ⟨k, hk⟩ := s.called_only_draws 5 a n
          exact ⟨_, k, hk⟩
      obtain ⟨m, k, rfl⟩ := hput
      exact ih _

/-! ## The vector and the handler (R458 (e), (f)) -/

section
variable {s : State} {vec : Nat}

theorem State.enterHandler_odd (h : odd (s.vbrEff + BitVec.ofNat 32 (4 * vec)) = true) :
    s.enterHandler vec = s.halt := if_pos h

theorem State.enterHandler_unread (h : odd (s.vbrEff + BitVec.ofNat 32 (4 * vec)) = false)
    (hv : s.memGet 5 (s.vbrEff + BitVec.ofNat 32 (4 * vec)) 4 = none) :
    s.enterHandler vec = (s.called 5 (s.vbrEff + BitVec.ofNat 32 (4 * vec)) 4).halt := by
  simp only [State.enterHandler, h, Bool.false_eq_true, if_false, hv]

theorem State.enterHandler_read {v : Word} (h : odd (s.vbrEff + BitVec.ofNat 32 (4 * vec)) = false)
    (hv : s.memGet 5 (s.vbrEff + BitVec.ofNat 32 (4 * vec)) 4 = some v) :
    let w : State := { s.called 5 (s.vbrEff + BitVec.ofNat 32 (4 * vec)) 4 with pc := v }
    (∀ x, w.fetchWordAt v = .error x → s.enterHandler vec = (w.afterFetch v).halt) ∧
    (∀ x, w.fetchWordAt v = .ok x → s.enterHandler vec = { w.afterFetch v with opcode := x }) := by
  intro w
  constructor
  all_goals
    intro x hx
    simp only [State.enterHandler, h, Bool.false_eq_true, if_false, hv]
    rw [hx]

/-- However the vector and the handler answer, only `pc`, the prefetched word, the run condition and the count of calls
change. -/
theorem State.enterHandler_only (s : State) (vec : Nat) :
    ∃ p w r k, s.enterHandler vec = { s with pc := p, opcode := w, run := r, draws := k } ∧
      (r = s.run ∨ r = .halted) := by
  cases ho : odd (s.vbrEff + BitVec.ofNat 32 (4 * vec)) with
  | true => exact ⟨_, _, _, _, State.enterHandler_odd ho, .inr rfl⟩
  | false =>
    obtain ⟨k, hk⟩ := s.called_only_draws 5 (s.vbrEff + BitVec.ofNat 32 (4 * vec)) 4
    cases hv : s.memGet 5 (s.vbrEff + BitVec.ofNat 32 (4 * vec)) 4 with
    | none => exact ⟨_, _, _, k, (State.enterHandler_unread ho hv).trans (by rw [hk]; rfl), .inr rfl⟩
    | some v =>
      obtain ⟨herror, hok⟩ := State.enterHandler_read ho hv
      rw [hk] at herror hok
      obtain ⟨k', hk'⟩ := ({ s with draws := k, pc := v } : State).afterFetch_only_draws v
      cases hw : ({ s with draws := k, pc := v } : State).fetchWordAt v with
      | ok w => exact ⟨_, _, _, _, (hok w hw).trans (by rw [hk']), .inl rfl⟩
      | error x => exact ⟨_, _, _, _, (herror x hw).trans (by rw [hk']; rfl), .inr rfl⟩

end

/-! ## The delivery -/

section
variable {s u : State} {e : Exc} {o : Origin} {ia : Word}

theorem deliver_odd (h : odd s.entered.getSP = true) : deliver e o ia s = s.entered.halt := if_pos h

theorem deliver_unframed (h : odd s.entered.getSP = false) (hf : s.framed e o ia = (false, u)) :
    deliver e o ia s = (u.drawBytes 5 (s.frameBase e) (frameBytes (e.format s.cfg.model))).halt := by
  unfold State.framed State.frameBase State.entered at hf
  refine (if_neg (Bool.eq_false_iff.1 h)).trans ?_
  rw [hf]
  rfl

theorem deliver_framed (h : odd s.entered.getSP = false) (hf : s.framed e o ia = (true, u)) :
    deliver e o ia s = (u.setSP (s.frameBase e)).enterHandler e.vector := by
  unfold State.framed State.frameBase State.entered at hf
  refine (if_neg (Bool.eq_false_iff.1 h)).trans ?_
  rw [hf]
  rfl

theorem State.framed_only {b : Bool} (hf : s.framed e o ia = (b, u)) :
    ∃ m k, u = { s.entered with mem := m, draws := k } := by
  have h := s.entered.putFields_only
    (frameFields (s.frameBase e) s.sr (e.stackedPC o ia s.pc) (e.format s.cfg.model) e.vector ia)
  rwa [show s.entered.putFields _ = (b, u) from hf] at h

/-- Everything a delivery can do to the state: beside the entry it writes A7, `pc`, the prefetched word, memory and the
count of free values, and it keeps the run condition or halts. -/
theorem deliver_only (s : State) (e : Exc) (o : Origin) (ia : Word) :
    ∃ sp p w r m k, deliver e o ia s =
        { s.entered.setSP sp with pc := p, opcode := w, run := r, mem := m, draws := k } ∧
      (r = s.run ∨ r = .halted) := by
  have unmoved : s.entered.setSP s.entered.getSP = s.entered := s.entered.setSP_getSP
  cases ho : odd s.entered.getSP with
  | true => exact ⟨s.entered.getSP, _, _, _, _, _, (deliver_odd ho).trans (by rw [unmoved]; rfl), .inr rfl⟩
  | false =>
    rcases hf : s.framed e o ia with ⟨b, u⟩
    obtain ⟨m, k, rfl⟩ := State.framed_only hf
    cases b with
    | false =>
      obtain ⟨m', k', hd⟩ := State.drawBytes_only_mem { s.entered with mem := m, draws := k } 5 (s.frameBase e)
        (frameBytes (e.format s.cfg.model))
      exact ⟨s.entered.getSP, _, _, _, m', k', (deliver_unframed ho hf).trans (by rw [hd, unmoved]; rfl), .inr rfl⟩
    | true =>
      have hd := deliver_framed ho hf
      have hsp : ({ s.entered with mem := m, draws := k } : State).setSP (s.frameBase e) =
          { s.entered.setSP (s.frameBase e) with mem := m, draws := k } :=
        (State.setSP_withDraws { s.entered with mem := m } _ k).trans (by rw [State.setSP_withMem])
      rw [hsp] at hd
      obtain ⟨p, w, r, k', hh, hr⟩ :=
        State.enterHandler_only { s.entered.setSP (s.frameBase e) with mem := m, draws := k } e.vector
      exact ⟨_, p, w, r, m, k', hd.trans hh, hr.imp_left fun h => h.trans (State.setSP_run ..)⟩

end

section
variable (s : State) (e : Exc) (o : Origin) (ia : Word)

@[simp] theorem deliver_cfg : (deliver e o ia s).cfg = s.cfg := by
  obtain ⟨sp, p, w, r, m, k, h, -⟩ := deliver_only s e o ia
  rw [h]
  exact State.setSP_cfg ..

@[simp] theorem deliver_sr : (deliver e o ia s).sr = s.entered.sr := by
  obtain ⟨sp, p, w, r, m, k, h, -⟩ := deliver_only s e o ia
  rw [h]
  exact State.setSP_sr ..

@[simp] theorem deliver_icount : (deliver e o ia s).icount = s.icount := by
  obtain ⟨sp, p, w, r, m, k, h, -⟩ := deliver_only s e o ia
  rw [h]
  exact State.setSP_icount ..

@[simp] theorem deliver_controls : (deliver e o ia s).controls = s.controls := by
  obtain ⟨sp, p, w, r, m, k, h, -⟩ := deliver_only s e o ia
  rw [h]
  simp [State.controls, State.entered]

/-- A delivery keeps the run condition or halts (R461). -/
theorem deliver_run : (deliver e o ia s).run = s.run ∨ (deliver e o ia s).run = .halted := by
  obtain ⟨sp, p, w, r, m, k, h, hr⟩ := deliver_only s e o ia
  rw [h]
  exact hr

/-- A delivery ends in supervisor mode (R458 (b)). -/
theorem deliver_supervisor : (deliver e o ia s).supervisor = true := by
  rw [State.supervisor, deliver_sr]
  exact s.entered_supervisor

end

end Sys2Proof.Machine
end

section
/-! SUPPORT. Privilege (R467 to R469): the privileged rows in user mode, and what a step from user mode leaves of the
supervisor's state. -/

namespace Sys2Proof.Machine

/-! ## The privileged rows in user mode (R469) -/

section
variable {s : State} {i : Instr}

theorem privileged_error (h : s.supervisor = false) :
    privileged s = .error (.exc .privilegeViolation) s := if_neg (Bool.eq_false_iff.1 h)

/-- MOVEC is refused its privilege before its extension word (R469). -/
theorem movecStart_user (h : s.supervisor = false) (hmodel : s.cfg.model.atLeast10 = true) (code : BitVec 12)
    (a : Word) : movecStart code a s = .error (.exc .privilegeViolation) s :=
  (bind_ok (from68010_ok hmodel)).trans (bind_error (privileged_error h))

/-- A privileged row in user mode raises `Privilege_violation` before any extension word is fetched. -/
theorem exec_privileged_user (hrow : privilegedRow s.cfg.model i = true) (hmodel : i.onModel s.cfg.model = true)
    (h : s.supervisor = false) :
    exec i s = .next (deliver .privilegeViolation .execute s.pc s.started.counted) := by
  have hgate : privileged s.started = .error (.exc .privilegeViolation) s.started :=
    privileged_error ((State.supervisor_started s).trans h)
  cases i
  case reset => exact cycle_exc hgate
  case andiSr | eoriSr | oriSr | moveToSr | moveToUsp | moveFromUsp | rte | stop => exact cycle_exc (bind_error hgate)
  case moveFromSr ea =>
    refine cycle_exc (t := s.started) ?_
    have h10 : s.started.cfg.model.atLeast10 = true := hrow
    rw [readModel_bind, if_pos h10]
    exact bind_error hgate
  case movecFrom | movecTo =>
    exact cycle_exc (bind_error (movecStart_user ((State.supervisor_started s).trans h) hmodel _ _))
  case moves => exact cycle_exc ((bind_ok (from68010_ok (s := s.started) hmodel)).trans (bind_error hgate))
  all_goals cases hrow

/-- Only privileged rows write the system byte of SR, a control register, or a stack register by its own name. -/
theorem writes_nothing_of_supervisor {m : Model} (h : privilegedRow m i = false) :
    writesSystemByte i = false ∧ writesControl i = false ∧ ∀ r, writesStackReg r i = false := by
  cases i
  case oriSr | andiSr | eoriSr | moveToSr | stop | rte | movecTo | moveToUsp => cases h
  all_goals exact ⟨rfl, rfl, fun _ => rfl⟩

end

/-- Settles O46: the gate stands before the first extension word in every privileged row. -/
theorem privilegeViolation : Obligations.PrivilegeViolation := by
  unfold Obligations.PrivilegeViolation
  exact fun s i hrow hmodel h => ⟨exec_privileged_user hrow hmodel h, rfl, rfl⟩

/-! ## What a step from user mode leaves (R467, R468) -/

/-- The supervisor's state is the same: its stack pointers, the control registers and the system byte of SR. -/
structure State.SameSystem (s u : State) : Prop where
  isp : u.isp = s.isp
  msp : u.msp = s.msp
  controls : u.controls = s.controls
  system : u.sr &&& 0xFFE0#16 = s.sr &&& 0xFFE0#16

/-- `t` is what a step from the user-mode state `s` may end in. -/
def State.Isolates (s t : State) : Prop :=
  t.controls = s.controls ∧
  ((t.supervisor = false ∧ t.sr &&& 0xFFE0#16 = s.sr &&& 0xFFE0#16 ∧ t.isp = s.isp ∧ t.msp = s.msp) ∨
    (t.supervisor = true ∧ ∃ e o u, u.supervisor = false ∧ u.isp = s.isp ∧ u.msp = s.msp ∧
      u.sr &&& 0xFFE0#16 = s.sr &&& 0xFFE0#16 ∧ t = deliver e o s.pc u))

namespace State.SameSystem

variable {s u : State}

theorem refl (s : State) : s.SameSystem s := ⟨rfl, rfl, rfl, rfl⟩

theorem start (s : State) : s.SameSystem s.started.counted := ⟨rfl, rfl, rfl, rfl⟩

theorem afterFetch (h : s.SameSystem u) (a : Word) : s.SameSystem (u.afterFetch a) := by
  obtain ⟨k, hk⟩ := u.afterFetch_only_draws a
  rw [hk]
  exact ⟨h.isp, h.msp, h.controls, h.system⟩

theorem counted (h : s.SameSystem u) : s.SameSystem u.counted := ⟨h.isp, h.msp, h.controls, h.system⟩

theorem supervisor (h : s.SameSystem u) : u.supervisor = s.supervisor := by
  have := congrArg (fun v : Half => v.getLsbD 13) h.system
  simpa [State.supervisor] using this

/-- The frame of an unprivileged instruction in user mode does not reach ISP or MSP: A7 is USP there (R33). -/
theorem of_frame {i : Instr} {w : List Target} (huser : s.supervisor = false)
    (hframe : s.Frame u w (fun r => writesStackReg r i)) (hstack : ∀ r, writesStackReg r i = false)
    (hcontrols : u.controls = s.controls) (hsystem : u.sr &&& 0xFFE0#16 = s.sr &&& 0xFFE0#16) : s.SameSystem u := by
  have hactive : s.activeStack = .usp := State.activeStack_of_user huser
  have hother {r : StackReg} (hr : r ≠ .usp) : u.stackReg r = s.stackReg r :=
    hframe.stack r (hstack r) fun h => absurd (h.trans hactive) hr
  exact ⟨hother (r := .isp) (by decide), hother (r := .msp) (by decide), hcontrols, hsystem⟩

theorem isolates_deliver (h : s.SameSystem u) (huser : s.supervisor = false) (e : Exc) (o : Origin) :
    s.Isolates (deliver e o s.pc u) :=
  ⟨(deliver_controls ..).trans h.controls,
    .inr ⟨deliver_supervisor .., e, o, u, h.supervisor.trans huser, h.isp, h.msp, h.system, rfl⟩⟩

theorem isolates (h : s.SameSystem u) (huser : s.supervisor = false) : s.Isolates u :=
  ⟨h.controls, .inl ⟨h.supervisor.trans huser, h.system, h.isp, h.msp⟩⟩

/-- The end of an instruction counts it and prefetches; a failed prefetch is delivered. -/
theorem isolates_finish (h : s.SameSystem u) (huser : s.supervisor = false) : s.Isolates (finish true s.pc u) := by
  by_cases hr : u.run = .running
  · have hnext := h.counted.afterFetch u.pc
    cases hw : u.fetchWordAt u.pc with
    | ok w =>
      rw [finish_ok hr hw]
      exact isolates ⟨hnext.isp, hnext.msp, hnext.controls, hnext.system⟩ huser
    | error e =>
      rw [finish_error hr hw]
      exact hnext.isolates_deliver huser e .prefetch
  · have hf : finish true s.pc u = u.counted := if_neg fun ⟨_, h⟩ => hr h
    rw [hf]
    exact h.counted.isolates huser

end State.SameSystem

/-- An instruction in user mode: a privileged row raises its violation; any other leaves the supervisor's state. -/
theorem exec_isolates {s t : State} {i : Instr} (huser : s.supervisor = false) (hwf : i.wf = true)
    (hmodel : i.onModel s.cfg.model = true) (hown : handsOver s i = false) (h : exec i s = .next t) :
    s.Isolates t := by
  cases hrow : privilegedRow s.cfg.model i with
  | true =>
    rw [exec_privileged_user hrow hmodel huser] at h
    cases h
    exact (State.SameSystem.start s).isolates_deliver huser _ _
  | false =>
    obtain ⟨hbyte, hcontrol, hstack⟩ := writes_nothing_of_supervisor hrow
    rcases (exec_runs i s hown).outcome h with ⟨u, hu, hdone⟩ | ⟨u, e, rfl, hfreed, -⟩
    · have hsame : s.SameSystem u :=
        .of_frame huser (hdone.frame hwf) hstack (hdone.control hcontrol) (hdone.system hbyte)
      rcases hu with rfl | ⟨e, -, -, rfl⟩
      · exact hsame.isolates_finish huser
      · exact hsame.counted.isolates_deliver huser e .execute
    · have hsame : s.SameSystem u :=
        .of_frame huser hfreed.left.frame hstack (hfreed.control hcontrol) hfreed.left.system
      exact hsame.counted.isolates_deliver huser e .execute

theorem step_isolates {s t : State} (huser : s.supervisor = false) (hown : s.ownStep) (h : step s = .next t) :
    s.Isolates t := by
  by_cases hr : s.run = .running
  · cases ht : s.traced with
    | true => rw [step_of_traced hr ht] at h; cases h
    | false =>
      cases hf : s.fetched with
      | error x =>
        rw [step_of_no_row hr ht hf] at h
        cases h
        exact (State.SameSystem.start s).isolates_deliver huser _ _
      | ok r =>
        obtain ⟨hwf, hmodel, -⟩ := decoderSound _ _ _ _ hf
        rw [step_of_fetched hr ht hf] at h
        exact exec_isolates huser hwf hmodel (hown _ _ hf) h
  · rw [step_of_not_running hr] at h
    cases h
    exact (State.SameSystem.refl s).isolates huser

/-- Settles O52: in user mode a privileged row only raises its violation, and no other row reaches the supervisor's
state, which the delivery of an exception then enters. -/
theorem userModeIsolation : Obligations.UserModeIsolation := by
  unfold Obligations.UserModeIsolation
  intro s t huser hown h
  obtain ⟨hcontrols, hmode⟩ := step_isolates huser hown h
  obtain ⟨hvbr, hsfc, hdfc, hcacr, hcaar⟩ :
      t.vbr = s.vbr ∧ t.sfc = s.sfc ∧ t.dfc = s.dfc ∧ t.cacr = s.cacr ∧ t.caar = s.caar := by
    simpa only [State.controls, Prod.mk.injEq] using hcontrols
  exact ⟨hvbr, hsfc, hdfc, hcacr, hcaar, hmode⟩

end Sys2Proof.Machine
end

section
/-! SUPPORT. The obligations on system control (R400 to R424, R440): the immediates and moves of the status register, the
control registers as storage, RESET, STOP and RTE, MOVES, CHK, the traps and the breakpoint. -/

namespace Sys2Proof.Machine

/-! ## CCR and SR (R400 to R409) -/

section
variable {s : State}

theorem ccrImm_ok (hfetch : s.canFetch 1 = true) (f : Byte → Byte → Byte) (imm : Byte) :
    ccrImm f imm s = .ok () ((s.skip 1).setCCR (f s.getCCR imm)) := bind_ok (fetchExt_ok_of_canFetch hfetch)

theorem srImm_ok (hfetch : s.canFetch 1 = true) (hsup : s.supervisor = true) (f : Half → Half → Half) (imm : Half) :
    srImm f imm s = .ok () ((s.skip 1).setSR (f s.sr imm)) :=
  (bind_ok (privileged_ok hsup)).trans (bind_ok (fetchExt_ok_of_canFetch hfetch))

theorem State.getCCR_afterEA (s : State) (ea : Ea) (sz : Size) : (s.afterEA ea sz).getCCR = s.getCCR :=
  congrArg (BitVec.setWidth 8) (s.afterEA_sr ea sz)

theorem privileged_started (h : s.supervisor = true) : privileged s.started = .ok () s.started :=
  privileged_ok ((State.supervisor_started s).trans h)

theorem from68010_started (h : s.cfg.model ≠ .mc68000) : from68010 s.started = .ok () s.started :=
  from68010_ok (Model.atLeast10_iff.2 h)

variable {ea : Ea} (hready : s.started.eaReady ea .w = true)
include hready

theorem execMoveToCcr_ok {v : Word} (hvalue : s.started.operand ea .w = some v) :
    execMoveToCcr ea s = .next (finish true s.pc ((s.started.afterEA ea .w).setCCR (v.setWidth 8))) :=
  cycle_ok (bind_ok (fetchEA_ok hready hvalue))

theorem execMoveToSr_ok {v : Word} (hvalue : s.started.operand ea .w = some v) (hsup : s.supervisor = true) :
    execMoveToSr ea s = .next (finish true s.pc ((s.started.afterEA ea .w).setSR (v.setWidth 16))) :=
  cycle_ok ((bind_ok (privileged_started hsup)).trans (bind_ok (fetchEA_ok hready hvalue)))

variable (hstore : (s.started.afterEA ea .w).canStore (s.started.eaLoc ea .w) .w = true)
include hstore

theorem execMoveFromCcr_ok (hmodel : s.cfg.model ≠ .mc68000) :
    execMoveFromCcr ea s = .next (finish true s.pc
      ((s.started.afterEA ea .w).stored (s.started.eaLoc ea .w) .w (s.getCCR.setWidth 32))) := by
  refine cycle_ok ?_
  rw [bind_ok (from68010_started hmodel), bind_ok (calcEA_ok hready), readCCR_bind, State.getCCR_afterEA]
  exact writeEA_ok hstore

theorem execMoveFromSr_ok (hgate : s.cfg.model = .mc68000 ∨ s.supervisor = true) :
    execMoveFromSr ea s = .next (finish true s.pc
      ((s.started.afterEA ea .w).stored (s.started.eaLoc ea .w) .w (s.sr.setWidth 32))) := by
  have hwrite : (do
      let loc ← calcEA ea .w
      let v ← readSR
      writeEA loc .w (v.setWidth 32)) s.started =
      .ok () ((s.started.afterEA ea .w).stored (s.started.eaLoc ea .w) .w (s.sr.setWidth 32)) := by
    rw [bind_ok (calcEA_ok hready), readSR_bind, State.afterEA_sr]
    exact writeEA_ok hstore
  refine cycle_ok ?_
  rw [readModel_bind]
  by_cases h10 : s.started.cfg.model.atLeast10 = true
  · rw [if_pos h10]
    have hsup : s.supervisor = true := hgate.resolve_left (Model.atLeast10_iff.1 h10)
    exact (bind_ok (privileged_started hsup)).trans hwrite
  · rw [if_neg h10]
    exact hwrite

end

/-- Settles O34: each rule followed to its last write. -/
theorem statusInstructions : Obligations.StatusInstructions := by
  unfold Obligations.StatusInstructions
  intro s
  refine ⟨fun b h hfetch => ⟨?_, ?_, ?_, fun hsup => ⟨?_, ?_, ?_⟩⟩, fun ea hready =>
    ⟨fun v hvalue => ⟨execMoveToCcr_ok hready hvalue, execMoveToSr_ok hready hvalue⟩,
      fun hstore => ⟨execMoveFromCcr_ok hready hstore, execMoveFromSr_ok hready hstore⟩⟩⟩
  · exact cycle_ok (ccrImm_ok hfetch _ b)
  · exact cycle_ok (ccrImm_ok hfetch _ b)
  · exact cycle_ok (ccrImm_ok hfetch _ b)
  all_goals have hsup' := (State.supervisor_started s).trans hsup
  · exact cycle_ok (srImm_ok hfetch hsup' _ h)
  · exact cycle_ok (srImm_ok hfetch hsup' _ h)
  · exact cycle_ok (srImm_ok hfetch hsup' _ h)

/-! ## The control registers (R45, R410 to R414) -/

section
variable (s : State) (r : ControlReg) (v : Word)

/-- SFC and DFC keep three bits of what is written (R45). -/
theorem setWidth_three (v : Word) : (v.setWidth 3).setWidth 32 = v &&& 7#32 := by
  refine BitVec.eq_of_getLsbD_eq fun i hi => ?_
  rw [BitVec.getLsbD_setWidth, BitVec.getLsbD_setWidth, BitVec.getLsbD_and]
  rcases Nat.lt_or_ge i 3 with h | h
  · interval_cases i <;> simp
  · have h7 : (7#32).getLsbD i = false := by interval_cases i <;> rfl
    simp [h7, Nat.not_lt.2 h]

theorem State.readControl_writeControl_same :
    (s.writeControl r v).readControl r = (if r = .sfc ∨ r = .dfc then v &&& 7#32 else v) := by
  cases r
  case sfc | dfc => exact setWidth_three v
  all_goals rfl

theorem State.readControl_writeControl_ne {r q : ControlReg} :
    q ≠ r → (s.writeControl r v).readControl q = s.readControl q := by
  cases q <;> cases r <;> simp [State.readControl, State.writeControl]

theorem State.readControl_started_skip (n : Nat) : (s.started.skip n).readControl r = s.readControl r := by
  cases r <;> rfl

theorem State.getG_started_skip (n : Nat) (g : GReg) : (s.started.skip n).getG g = s.getG g := by
  cases g <;> rfl

end

section
variable {s : State} {code : BitVec 12}

theorem execMoveToUsp_ok (hsup : s.supervisor = true) (n : RegNo) :
    execMoveToUsp n s = .next (finish true s.pc { s.started with usp := s.getA n }) :=
  cycle_ok (bind_ok (privileged_started hsup))

theorem execMoveFromUsp_ok (hsup : s.supervisor = true) (n : RegNo) :
    execMoveFromUsp n s = .next (finish true s.pc (s.started.setA n s.usp)) :=
  cycle_ok (bind_ok (privileged_started hsup))

variable (hsup : s.supervisor = true) (hmodel : s.cfg.model ≠ .mc68000) (hfetch : s.started.canFetch 1 = true)
include hsup hmodel hfetch

/-- MOVEC goes on with a register that the model has (R413). -/
theorem movecStart_ok {c : ControlReg} (hcode : controlRegOf code = some c) (hc : c.existsOn s.cfg.model = true)
    (a : Word) : movecStart code a s.started = .ok c (s.started.skip 1) := by
  have hc' : c.existsOn (s.started.skip 1).cfg.model = true := hc
  rw [movecStart, bind_ok (from68010_started hmodel), bind_ok (privileged_started hsup),
    bind_ok (fetchExt_ok_of_canFetch hfetch), readModel_bind]
  simp only [hcode, hc', if_true, pure_run]

/-- A code that names no register of the model is illegal, with `pc` back at the instruction (R413). -/
theorem movecStart_illegal (hcode : ∀ c, controlRegOf code = some c → c.existsOn s.cfg.model = false) (a : Word) :
    movecStart code a s.started = .error (.exc .illegalInstruction) { s.started.skip 1 with pc := a } := by
  rw [movecStart, bind_ok (from68010_started hmodel), bind_ok (privileged_started hsup),
    bind_ok (fetchExt_ok_of_canFetch hfetch), readModel_bind]
  cases h : controlRegOf code with
  | none => rfl
  | some c =>
    have hc : c.existsOn (s.started.skip 1).cfg.model = false := hcode c h
    simp only [hc, Bool.false_eq_true, if_false]
    rfl

theorem execMovec_ok {c : ControlReg} (hcode : controlRegOf code = some c) (hc : c.existsOn s.cfg.model = true)
    (r : GReg) :
    execMovecFrom r code s = .next (finish true s.pc ((s.started.skip 1).setG r (s.readControl c))) ∧
    execMovecTo r code s = .next (finish true s.pc ((s.started.skip 1).writeControl c (s.getG r))) := by
  have hstart := movecStart_ok hsup hmodel hfetch hcode hc s.pc
  constructor
  · refine cycle_ok ((bind_ok hstart).trans ?_)
    rw [← s.readControl_started_skip c 1]
    exact writeG_run r _ _
  · refine cycle_ok ((bind_ok hstart).trans ((bind_ok (readG_run r _)).trans ?_))
    rw [s.getG_started_skip 1 r]

theorem execMovec_illegal (hcode : ∀ c, controlRegOf code = some c → c.existsOn s.cfg.model = false) (r : GReg) :
    execMovecFrom r code s = .next (deliver .illegalInstruction .execute s.pc s.counted) ∧
    execMovecTo r code s = .next (deliver .illegalInstruction .execute s.pc s.counted) := by
  have hstart := movecStart_illegal hsup hmodel hfetch hcode s.pc
  exact ⟨cycle_exc (bind_error hstart), cycle_exc (bind_error hstart)⟩

end

/-- Settles O35: MOVEC's start by the code, and the control registers one by one. -/
theorem controlRegisterMoves : Obligations.ControlRegisterMoves := by
  unfold Obligations.ControlRegisterMoves
  refine ⟨fun s hsup => ⟨fun n => ⟨execMoveToUsp_ok hsup n, execMoveFromUsp_ok hsup n⟩,
    fun r code hmodel hfetch => ⟨fun c hcode hc => execMovec_ok hsup hmodel hfetch hcode hc r,
      fun hcode => execMovec_illegal hsup hmodel hfetch hcode r⟩⟩,
    fun s r q v => ⟨s.readControl_writeControl_same r v, s.readControl_writeControl_ne v, rfl, rfl, rfl, ?_, ?_, ?_, ?_⟩⟩
  · exact s.writeControl_d r v
  · exact s.writeControl_a r v
  · exact s.writeControl_sr r v
  · exact s.writeControl_mem r v

/-! ## RESET, STOP and RTE (R415 to R417) -/

/-- The frame is read whole; a format of 0 or 2 is popped by its size and anything else is refused (R416). -/
theorem returnFromException_ok {s : State} {sr npc fw : Word} (hsr : s.valueAt (.mem 5 s.getSP) .w = some sr)
    (hnpc : s.valueAt (.mem 5 (s.getSP + 2)) .l = some npc) (hfw : s.valueAt (.mem 5 (s.getSP + 6)) .w = some fw)
    (hfmt : fw.toNat / 4096 = 0 ∨ fw.toNat / 4096 = 2) :
    returnFromException s = .ok () { (s.setSP (s.getSP + BitVec.ofNat 32 (frameBytes (fw.toNat / 4096)))).setSR
      (sr.setWidth 16) with pc := npc } := by
  refine (bind_ok (memReadFC_ok_of_valueAt hsr)).trans ((bind_ok (memReadFC_ok_of_valueAt hnpc)).trans
    ((bind_ok (memReadFC_ok_of_valueAt hfw)).trans ?_))
  rcases hfmt with h | h
  all_goals
    simp only [h]
    rfl

theorem returnFromException_format {s : State} {sr npc fw : Word} (hsr : s.valueAt (.mem 5 s.getSP) .w = some sr)
    (hnpc : s.valueAt (.mem 5 (s.getSP + 2)) .l = some npc) (hfw : s.valueAt (.mem 5 (s.getSP + 6)) .w = some fw)
    (h0 : fw.toNat / 4096 ≠ 0) (h2 : fw.toNat / 4096 ≠ 2) :
    returnFromException s = .error (.exc .formatError) s := by
  refine (bind_ok (memReadFC_ok_of_valueAt hsr)).trans ((bind_ok (memReadFC_ok_of_valueAt hnpc)).trans
    ((bind_ok (memReadFC_ok_of_valueAt hfw)).trans (congrFun (?_ : _ = raise .formatError) s)))
  split
  next h => exact absurd h h0
  next h => exact absurd h h2
  next => rfl

/-- STOP leaves the core stopped or finished, so that nothing is prefetched (R417, R130). -/
theorem execStop_ok {s : State} (hsup : s.supervisor = true) (hfetch : s.started.canFetch 1 = true) (imm : Half) :
    execStop imm s = .next { (s.started.skip 1).setSR imm with
      run := stopCondition imm, icount := s.icount + 1 } := by
  have hstop : stopCondition imm ≠ .running := by
    unfold stopCondition
    split <;> decide
  refine (cycle_ok ((bind_ok (privileged_started hsup)).trans (bind_ok (fetchExt_ok_of_canFetch hfetch)))).trans ?_
  exact congrArg Host.Outcome.next (if_neg fun ⟨_, h⟩ => hstop h)

/-- Settles O36: the frame that RTE reads, by its format. -/
theorem machineControl : Obligations.MachineControl := by
  unfold Obligations.MachineControl
  intro s hsup
  have hgate := privileged_started hsup
  refine ⟨cycle_ok hgate, fun imm hfetch => execStop_ok hsup hfetch imm, fun sr npc fw hsr hnpc hfw =>
    ⟨fun h => ?_, fun h => ?_, fun h0 h2 => ?_⟩⟩
  · have hrte := returnFromException_ok hsr hnpc hfw (.inl h)
    rw [h] at hrte
    exact cycle_ok ((bind_ok hgate).trans hrte)
  · have hrte := returnFromException_ok hsr hnpc hfw (.inr h)
    rw [h] at hrte
    exact cycle_ok ((bind_ok hgate).trans hrte)
  · exact cycle_exc ((bind_ok hgate).trans (returnFromException_format hsr hnpc hfw h0 h2))

/-! ## MOVES (R418) -/

theorem writeMoves_run (sz : Size) (r : GReg) (v : Word) (t : State) :
    writeMoves sz r v t = .ok () (match r with
      | .d n => t.setDSized sz n v
      | .a n => t.setA n (sz.sext v)) := by cases r <;> rfl

/-- Settles O37: the register is read before the effective address is computed, and the access is made in the space
that the instruction began with. -/
theorem moveSpace : Obligations.MoveSpace := by
  unfold Obligations.MoveSpace
  intro s sz r ea s1 t a hsup hmodel hfetch hready
  have hread : readG r s1 = .ok (s.getG r) s1 := (readG_run r s1).trans (by rw [s.getG_started_skip 1 r])
  constructor
  · intro hstore
    refine cycle_ok ?_
    rw [bind_ok (from68010_started hmodel), bind_ok (privileged_started hsup),
      bind_ok (fetchExt_ok_of_canFetch hfetch), bind_ok hread, bind_ok (calcEA_ok hready)]
    exact memWriteFC_ok_of_canStore hstore
  · intro v hvalue
    refine cycle_ok ?_
    rw [bind_ok (from68010_started hmodel), bind_ok (privileged_started hsup),
      bind_ok (fetchExt_ok_of_canFetch hfetch), bind_ok hread, bind_ok (calcEA_ok hready)]
    exact (bind_ok (memReadFC_ok_of_valueAt hvalue)).trans (writeMoves_run sz r v t)

/-! ## CHK (R421) -/

/-- The flags of a CHK that traps (R193). -/
theorem chkFlags_ok (n : Bool) (t : State) : ∃ (z v c : Bool) (k : Nat),
    chkFlags n t = .ok ()
      (({ t with draws := k } : State).setFlags { t.flags with n := n, z := z, v := v, c := c }) ∧
    (t.cfg.undefinedFlags = .unchanged → z = t.flags.z ∧ v = t.flags.v ∧ c = t.flags.c ∧ k = t.draws) := by
  obtain ⟨z, kz, hz, hz'⟩ := undefinedFlag_ok t.flags.z t
  obtain ⟨v, kv, hv, hv'⟩ := undefinedFlag_ok t.flags.v { t with draws := kz }
  obtain ⟨c, kc, hc, hc'⟩ := undefinedFlag_ok t.flags.c { t with draws := kv }
  refine ⟨z, v, c, kc, ?_, fun h => ?_⟩
  · simp only [chkFlags, readFlags_bind]
    rw [bind_ok hz, bind_ok hv, bind_ok hc, writeFlags_run]
  · obtain ⟨rfl, rfl⟩ := hz' h
    obtain ⟨rfl, rfl⟩ := hv' h
    obtain ⟨rfl, rfl⟩ := hc' h
    exact ⟨rfl, rfl, rfl, rfl⟩

/-- Settles O39: by the value against 0 and against the bound, with the flags of a trap said once. -/
theorem checkBounds : Obligations.CheckBounds := by
  unfold Obligations.CheckBounds
  intro s dn ea b hready hvalue t v bound
  have hcfg : t.cfg = s.cfg := State.afterEA_cfg ..
  refine ⟨fun hlow hhigh => ?_, fun hout => ?_⟩
  · refine cycle_ok ((bind_ok (fetchEA_ok hready hvalue)).trans ((readD_bind ..).trans ?_))
    rw [if_neg (show ¬ v < 0 by omega), if_neg (show ¬ v > bound by omega), pure_run]
  · obtain ⟨z, f, c, k, hflags, hundefined⟩ := chkFlags_ok (decide (v < 0)) t
    refine ⟨z, f, c, k, ?_, fun hu => hundefined (by rw [hcfg, hu])⟩
    refine cycle_exc (e := .chkException) ((bind_ok (fetchEA_ok hready hvalue)).trans ((readD_bind ..).trans ?_))
    by_cases hneg : v < 0
    · rw [if_pos hneg]
      exact bind_ok ((congrArg (chkFlags · t) (decide_eq_true hneg)).symm.trans hflags)
    · rw [if_neg hneg, if_pos (hout.resolve_left hneg)]
      exact bind_ok ((congrArg (chkFlags · t) (decide_eq_false hneg)).symm.trans hflags)

/-! ## The traps and the breakpoint (R419 to R424, R440) -/

/-- Settles O38: each rule is one raise. -/
theorem traps : Obligations.Traps := by
  unfold Obligations.Traps
  intro s v low
  refine ⟨cycle_exc (raise_run ..), ?_, cycle_exc (raise_run ..), cycle_exc (raise_run ..), cycle_exc (raise_run ..)⟩
  split
  next h => exact cycle_exc (t := s.started) ((readFlags_bind ..).trans (congrFun (if_pos h) _))
  next h => exact cycle_ok (t := s.started) ((readFlags_bind ..).trans (congrFun (if_neg h) _))

theorem State.foldl_putByte_only_mem (s : State) (bs : List (FC × Word × Byte)) :
    ∃ m, bs.foldl (fun t b => t.putByte b.1 b.2.1 b.2.2) s = { s with mem := m } := by
  induction bs generalizing s with
  | nil => exact ⟨_, rfl⟩
  | cons b bs ih =>
    obtain ⟨m, hm⟩ := ih (s.putByte b.1 b.2.1 b.2.2)
    exact ⟨m, hm⟩

/-- The host's edit loads the word it answers; it writes neither the run condition nor the parameters (R440, R499). -/
theorem State.edited_opcode_run_cfg (s : State) (e : HostEdit) :
    (s.edited e).opcode = e.word ∧ (s.edited e).run = s.run ∧ (s.edited e).cfg = s.cfg := by
  unfold State.edited
  obtain ⟨m, hm⟩ := State.foldl_putByte_only_mem _ e.bytes
  rw [hm]
  exact ⟨rfl, rfl, rfl⟩

/-- Settles O40: the rule begins with `pc` back at the breakpoint, which is the state that the step began in. -/
theorem breakpoint : Obligations.Breakpoint := by
  unfold Obligations.Breakpoint
  intro s v
  have hback : (do
      writePC s.pc
      fun t =>
        if t.cfg.bkptPresent then .ok () (t.edited (bkptCallback t v))
        else .error (.exc .illegalInstruction) t : Op Unit) s.started =
      if s.cfg.bkptPresent then .ok () (s.edited (bkptCallback s v)) else .error (.exc .illegalInstruction) s := rfl
  obtain ⟨hopcode, hrun, -⟩ := s.edited_opcode_run_cfg (bkptCallback s v)
  refine ⟨fun h => ?_, fun h => ⟨?_, hopcode, hrun⟩⟩
  · rw [h] at hback
    simp only [exec, execBkpt, cycleWith, hback]
    rfl
  · rw [h] at hback
    simp only [exec, execBkpt, cycleWith, hback]
    rfl

/-! ## The table of the Operation Results (R462) -/

/-- Settles O42: the table read off by the model. -/
theorem exceptionTable : Obligations.ExceptionTable := by
  unfold Obligations.ExceptionTable
  intro m o ia pc n row two access
  cases m with
  | mc68000 | mc68010 | mc68020 =>
    exact ⟨⟨rfl, rfl, rfl⟩, ⟨rfl, rfl, rfl⟩, ⟨rfl, rfl, rfl⟩, ⟨rfl, rfl, rfl⟩, ⟨rfl, rfl, rfl⟩, ⟨rfl, rfl, rfl⟩,
      ⟨rfl, rfl, rfl⟩, ⟨rfl, rfl, rfl⟩, ⟨rfl, rfl, rfl⟩, ⟨rfl, rfl, rfl⟩, ⟨rfl, rfl, rfl⟩⟩

end Sys2Proof.Machine
end

section
/-! SUPPORT. The frame of an exception in memory (R454, R455, R459), and the obligations on the delivery: that it
succeeds, how it fails, and that RTE undoes it (R458, R461, R465). -/

namespace Sys2Proof.Machine

/-! ## Fields of a frame -/

/-- A field of a frame: its address, its width and its value. -/
abbrev Field := Word × Nat × Word

/-- Fields stored in order in supervisor data space. -/
def State.storeFields (s : State) : List Field → State
  | [] => s
  | (a, n, v) :: fs => (s.putBytes 5 a v n).storeFields fs

/-- Two fields share no address. -/
def Field.Apart (f g : Field) : Prop :=
  ∀ j < f.2.1, ∀ k < g.2.1, f.1 + BitVec.ofNat 32 j ≠ g.1 + BitVec.ofNat 32 k

/-- A byte that is none of a field's. -/
def Field.Misses (mm : MemMap) (fc : FC) (b : Word) (f : Field) : Prop :=
  ∀ k < f.2.1, mm.key fc b ≠ mm.key 5 (f.1 + BitVec.ofNat 32 k)

section
variable {s : State} {fs : List Field}

/-- Fields that the host accepts are stored (R459). -/
theorem State.putFields_of_accepts (h : ∀ f ∈ fs, s.cfg.mem.accepts .write 5 f.1 f.2.1 = true) :
    s.putFields fs = (true, s.storeFields fs) := by
  induction fs generalizing s with
  | nil => rfl
  | cons f fs ih =>
    obtain ⟨hfirst, hrest⟩ := List.forall_mem_cons.1 h
    unfold State.putFields
    rw [State.memPut_of_accepts hfirst]
    exact ih (by rwa [State.putBytes_cfg])

theorem State.storeFields_only_mem (s : State) (fs : List Field) : ∃ m, s.storeFields fs = { s with mem := m } := by
  induction fs generalizing s with
  | nil => exact ⟨_, rfl⟩
  | cons f fs ih =>
    obtain ⟨m, hm⟩ := s.putBytes_only_mem 5 f.1 f.2.2 f.2.1
    obtain ⟨m', hm'⟩ := ih (s.putBytes 5 f.1 f.2.2 f.2.1)
    exact ⟨m', by rw [State.storeFields, hm', hm]⟩

theorem State.setSP_storeFields (v : Word) :
    (s.storeFields fs).setSP v = { s.setSP v with mem := (s.storeFields fs).mem } := by
  obtain ⟨m, hm⟩ := s.storeFields_only_mem fs
  rw [hm, State.setSP_withMem]

theorem State.byteAt_storeFields_ne {fc : FC} {b : Word} (h : ∀ f ∈ fs, f.Misses s.cfg.mem fc b) :
    (s.storeFields fs).byteAt fc b = s.byteAt fc b := by
  induction fs generalizing s with
  | nil => rfl
  | cons f fs ih =>
    obtain ⟨hfirst, hrest⟩ := List.forall_mem_cons.1 h
    rw [State.storeFields, ih (by rwa [State.putBytes_cfg]), State.byteAt_putBytes_ne _ _ _ _ _ _ _ hfirst]

/-- Fields apart from one another all read back. -/
theorem State.bytesAt_storeFields {f : Field} (hwf : Memory.wf s.mem) (hapart : fs.Pairwise Field.Apart)
    (hf : f ∈ fs) (hn : f.2.1 < 2 ^ 32) : (s.storeFields fs).bytesAt 5 f.1 f.2.1 = lowBytes f.2.1 f.2.2 := by
  induction fs generalizing s with
  | nil => cases hf
  | cons g fs ih =>
    obtain ⟨hfirst, hrest⟩ := List.pairwise_cons.1 hapart
    rcases List.mem_cons.1 hf with rfl | hf
    · rw [State.storeFields, ← State.bytesAt_putBytes 5 f.1 f.2.2 hn hwf]
      refine State.bytesAt_congr fun j hj => State.byteAt_storeFields_ne fun g hg k hk => ?_
      rw [Ne, MemMap.key_inj]
      exact hfirst g hg j hj k hk
    · exact ih (s.wf_putBytes 5 g.1 g.2.2 g.2.1 hwf) hrest hf

/-- Whatever the host answers, the writes of fields change no byte but theirs. -/
theorem State.byteAt_putFields_ne {fc : FC} {b : Word} (h : ∀ f ∈ fs, f.Misses s.cfg.mem fc b) :
    (s.putFields fs).2.byteAt fc b = s.byteAt fc b := by
  induction fs generalizing s with
  | nil => rfl
  | cons f fs ih =>
    obtain ⟨hfirst, hrest⟩ := List.forall_mem_cons.1 h
    have hcalled : (s.called 5 f.1 f.2.1).byteAt fc b = s.byteAt fc b := by
      rw [State.byteAt, State.called_cfg, State.called_mem, State.byteAt]
    unfold State.putFields
    split
    · exact hcalled
    next t ht =>
      rcases State.memPut_cases ht with rfl | rfl
      · rw [ih (by rwa [State.putBytes_cfg])]
        exact State.byteAt_putBytes_ne _ _ _ _ _ _ _ hfirst
      · rw [ih (by rwa [State.called_cfg])]
        exact hcalled

end

/-! ## The frame -/

/-- Offsets from one base that follow one another. -/
theorem Field.Apart.of_offsets {a x y v w : Word} {p q n m : Nat} (hx : x = a + BitVec.ofNat 32 p)
    (hy : y = a + BitVec.ofNat 32 q) (h : p + n ≤ q) (hq : q + m ≤ 2 ^ 32) : Field.Apart (x, n, v) (y, m, w) := by
  intro j hj k hk
  simp only at hj hk
  rw [hx, hy, BitVec.add_assoc, BitVec.add_assoc, ← BitVec.ofNat_add, ← BitVec.ofNat_add, Ne, BitVec.add_right_inj,
    ← BitVec.toNat_inj, BitVec.toNat_ofNat, BitVec.toNat_ofNat, Nat.mod_eq_of_lt (by omega),
    Nat.mod_eq_of_lt (by omega)]
  omega

section
variable (a : Word) (old : Half) (spc : Word) (fmt vec : Nat) (ia : Word)

theorem frameFields_apart : (frameFields a old spc fmt vec ia).Pairwise Field.Apart := by
  have h0 : a = a + BitVec.ofNat 32 0 := (BitVec.add_zero a).symm
  have h02 : Field.Apart (a, 2, old.setWidth 32) (a + 2, 4, spc) :=
    .of_offsets (q := 2) h0 rfl (by decide) (by decide)
  have h06 : Field.Apart (a, 2, old.setWidth 32) (a + 6, 2, formatWord fmt vec) :=
    .of_offsets (q := 6) h0 rfl (by decide) (by decide)
  have h26 : Field.Apart (a + 2, 4, spc) (a + 6, 2, formatWord fmt vec) :=
    .of_offsets (p := 2) (q := 6) rfl rfl (by decide) (by decide)
  have h08 : Field.Apart (a, 2, old.setWidth 32) (a + 8, 4, ia) :=
    .of_offsets (q := 8) h0 rfl (by decide) (by decide)
  have h28 : Field.Apart (a + 2, 4, spc) (a + 8, 4, ia) :=
    .of_offsets (p := 2) (q := 8) rfl rfl (by decide) (by decide)
  have h68 : Field.Apart (a + 6, 2, formatWord fmt vec) (a + 8, 4, ia) :=
    .of_offsets (p := 6) (q := 8) rfl rfl (by decide) (by decide)
  unfold frameFields
  split
  · simpa using ⟨⟨h02, h06, h08⟩, ⟨h26, h28⟩, h68⟩
  · simpa using ⟨⟨h02, h06⟩, h26⟩

/-- Every field lies within the frame's bytes (R454, R455). -/
theorem frameFields_within {f : Field} (hf : f ∈ frameFields a old spc fmt vec ia) :
    ∃ p, f.1 = a + BitVec.ofNat 32 p ∧ p + f.2.1 ≤ frameBytes fmt := by
  have h8 : 8 ≤ frameBytes fmt := by
    unfold frameBytes
    split <;> decide
  unfold frameFields at hf
  rcases List.mem_append.1 hf with hf | hf
  · simp only [List.mem_cons, List.not_mem_nil, or_false] at hf
    rcases hf with rfl | rfl | rfl
    · exact ⟨0, (BitVec.add_zero a).symm, Nat.le_trans (show 0 + 2 ≤ 8 by decide) h8⟩
    · exact ⟨2, rfl, Nat.le_trans (show 2 + 4 ≤ 8 by decide) h8⟩
    · exact ⟨6, rfl, h8⟩
  · split at hf
    next h2 =>
      obtain rfl := List.mem_singleton.1 hf
      exact ⟨8, rfl, h2 ▸ Nat.le_refl 12⟩
    next => cases hf

/-- A byte outside the frame is none of its fields'. -/
theorem frameFields_misses {mm : MemMap} {fc : FC} {b : Word}
    (h : ∀ k < frameBytes fmt, mm.key fc b ≠ mm.key 5 (a + BitVec.ofNat 32 k)) :
    ∀ f ∈ frameFields a old spc fmt vec ia, Field.Misses mm fc b f := by
  intro f hf k hk
  obtain ⟨p, hp, hle⟩ := frameFields_within a old spc fmt vec ia hf
  rw [hp, BitVec.add_assoc, ← BitVec.ofNat_add]
  exact h (p + k) (by omega)

end

/-- A value that a width holds is its low bytes. -/
theorem lowBytes_of_lt {n : Nat} {v : Word} (h : v.toNat < 2 ^ (8 * n)) : lowBytes n v = v := by
  rw [lowBytes, Nat.mod_eq_of_lt h, BitVec.ofNat_toNat, BitVec.setWidth_eq]

theorem Exc.vector_lt (e : Exc) : e.vector < 48 := by
  cases e
  case trap n => exact Nat.add_lt_add_left n.isLt 32
  all_goals exact (by decide)

theorem Exc.format_eq (e : Exc) (m : Model) : e.format m = 0 ∨ e.format m = 2 := by
  unfold Exc.format
  split
  case h_4 => exact .inl rfl
  all_goals
    split
    · exact .inr rfl
    · exact .inl rfl

theorem formatWord_toNat (e : Exc) (m : Model) :
    (formatWord (e.format m) e.vector).toNat = e.format m * 4096 + 4 * e.vector := by
  have hv := e.vector_lt
  rw [formatWord, BitVec.toNat_ofNat, Nat.mod_eq_of_lt]
  rcases e.format_eq m with h | h
  all_goals omega

/-! ## A delivery that succeeds -/

section
variable {s : State} {e : Exc} {o : Origin} {ia : Word}

/-- The fields of the frame a delivery writes. -/
def State.frame (s : State) (e : Exc) (o : Origin) (ia : Word) : List Field :=
  frameFields (s.frameBase e) s.sr (e.stackedPC o ia s.pc) (e.format s.cfg.model) e.vector ia

theorem State.framed_of_accepts (h : ∀ f ∈ s.frame e o ia, s.cfg.mem.accepts .write 5 f.1 f.2.1 = true) :
    s.framed e o ia = (true, s.entered.storeFields (s.frame e o ia)) := State.putFields_of_accepts h

/-- Once the frame is written, memory is no longer changed. -/
theorem deliver_mem_of_framed {u : State} (h : odd s.entered.getSP = false) (hf : s.framed e o ia = (true, u)) :
    (deliver e o ia s).mem = u.mem := by
  obtain ⟨p, w, r, k, hd, -⟩ := (u.setSP (s.frameBase e)).enterHandler_only e.vector
  rw [deliver_framed h hf, hd]
  exact u.setSP_mem _

theorem State.framed_vbrEff {u : State} {b : Bool} (hf : s.framed e o ia = (b, u)) (v : Word) :
    (u.setSP v).vbrEff = s.vbrEff := by
  obtain ⟨m, k, rfl⟩ := State.framed_only hf
  exact State.vbrEff_congr (State.setSP_cfg ..) (State.setSP_vbr ..)

/-- With the frame written and the vector and the handler in plain memory, the delivery ends at the handler. -/
theorem deliver_ok {u : State} (h : odd s.entered.getSP = false) (hf : s.framed e o ia = (true, u))
    (hva : odd (s.vbrEff + BitVec.ofNat 32 (4 * e.vector)) = false)
    (hvector : s.cfg.mem.accepts .read 5 (s.vbrEff + BitVec.ofNat 32 (4 * e.vector)) 4 = true) :
    let v := u.bytesAt 5 (s.vbrEff + BitVec.ofNat 32 (4 * e.vector)) 4
    odd v = false → s.cfg.mem.accepts .read 6 v 2 = true →
    deliver e o ia s = { u.setSP (s.frameBase e) with pc := v, opcode := (u.bytesAt 6 v 2).setWidth 16 } := by
  intro v hv hhandler
  have hvbr := State.framed_vbrEff hf (s.frameBase e)
  rw [deliver_framed h hf]
  obtain ⟨m, k, hu⟩ := State.framed_only hf
  let t := u.setSP (s.frameBase e)
  have hcfg : t.cfg = s.cfg := by
    rw [State.setSP_cfg, hu]
    rfl
  have hbytes (fc : FC) (x : Word) (n : Nat) : t.bytesAt fc x n = u.bytesAt fc x n :=
    State.bytesAt_mem_congr (u.setSP_cfg _) (u.setSP_mem _) fc x n
  have haccepts : t.cfg.mem.accepts .read 5 (t.vbrEff + BitVec.ofNat 32 (4 * e.vector)) 4 = true := by
    rwa [hcfg, hvbr]
  have hget : t.memGet 5 (t.vbrEff + BitVec.ofNat 32 (4 * e.vector)) 4 = some v := by
    rw [State.memGet_of_accepts haccepts, hbytes, hvbr]
  obtain ⟨-, hok⟩ := State.enterHandler_read (s := t) (vec := e.vector) (by rwa [hvbr]) hget
  rw [State.called_of_accepts haccepts] at hok
  have hsup : t.supervisor = true := by
    rw [State.supervisor_setSP, hu]
    exact s.entered_supervisor
  have hfetch : ({ t with pc := v } : State).fetchable v = true := by
    refine State.fetchable_iff.2 ⟨hv, ?_⟩
    have hfc : ({ t with pc := v } : State).progFC = 6 := if_pos hsup
    have hc : ({ t with pc := v } : State).cfg = s.cfg := hcfg
    rwa [hfc, hc]
  rw [hok _ (State.fetchWordAt_ok hfetch), State.afterFetch_ok hfetch]
  have hfc : ({ t with pc := v } : State).progFC = 6 := if_pos hsup
  have hword : ({ t with pc := v } : State).bytesAt 6 v 2 = u.bytesAt 6 v 2 := hbytes 6 v 2
  rw [hfc, hword]

end

/-- What the frame's fields are, when each is accepted. -/
theorem State.frame_forall {s : State} {e : Exc} {o : Origin} {ia : Word} {P : Field → Prop}
    (h0 : P (s.frameBase e, 2, s.sr.setWidth 32)) (h2 : P (s.frameBase e + 2, 4, e.stackedPC o ia s.pc))
    (h6 : P (s.frameBase e + 6, 2, formatWord (e.format s.cfg.model) e.vector))
    (h8 : e.format s.cfg.model = 2 → P (s.frameBase e + 8, 4, ia)) : ∀ f ∈ s.frame e o ia, P f := by
  have hbase : ∀ f ∈ ([(s.frameBase e, 2, s.sr.setWidth 32), (s.frameBase e + 2, 4, e.stackedPC o ia s.pc),
      (s.frameBase e + 6, 2, formatWord (e.format s.cfg.model) e.vector)] : List Field), P f := by
    simpa only [List.forall_mem_cons] using ⟨h0, h2, h6, List.forall_mem_nil _⟩
  refine List.forall_mem_append.2 ⟨hbase, fun f hf => ?_⟩
  split at hf
  next h =>
    obtain rfl := List.mem_singleton.1 hf
    exact h8 h
  next => cases hf

section
variable {s : State} {e : Exc} {o : Origin} {ia : Word} (hsp : odd s.entered.getSP = false)
  (haccepts : ∀ f ∈ s.frame e o ia, s.cfg.mem.accepts .write 5 f.1 f.2.1 = true)
include hsp haccepts

/-- Memory after a delivery whose frame is accepted: that of the stored fields. -/
theorem deliver_mem_eq : (deliver e o ia s).mem = (s.entered.storeFields (s.frame e o ia)).mem :=
  deliver_mem_of_framed hsp (State.framed_of_accepts haccepts)

theorem deliver_bytesAt (fc : FC) (x : Word) (n : Nat) :
    (deliver e o ia s).bytesAt fc x n = (s.entered.storeFields (s.frame e o ia)).bytesAt fc x n := by
  obtain ⟨m, hu⟩ := s.entered.storeFields_only_mem (s.frame e o ia)
  refine State.bytesAt_mem_congr ?_ (deliver_mem_eq hsp haccepts) fc x n
  rw [hu]
  exact deliver_cfg ..

/-- Each field of the frame reads back after the delivery. -/
theorem deliver_field (hwf : Memory.wf s.mem) {a v : Word} {n : Nat} (hf : (a, n, v) ∈ s.frame e o ia)
    (hn : n < 2 ^ 32) (hlow : v.toNat < 2 ^ (8 * n)) : (deliver e o ia s).bytesAt 5 a n = v := by
  have hapart : (s.frame e o ia).Pairwise Field.Apart := frameFields_apart ..
  have hstored := State.bytesAt_storeFields (s := s.entered) hwf hapart hf hn
  rw [deliver_bytesAt hsp haccepts, hstored, lowBytes_of_lt hlow]

/-- Outside the frame memory is as before. -/
theorem deliver_byteAt_ne {fc : FC} {b : Word}
    (hb : ∀ k < frameBytes (e.format s.cfg.model),
      s.cfg.mem.key fc b ≠ s.cfg.mem.key 5 (s.frameBase e + BitVec.ofNat 32 k)) :
    (deliver e o ia s).byteAt fc b = s.byteAt fc b := by
  have hstored : (s.entered.storeFields (s.frame e o ia)).byteAt fc b = s.byteAt fc b :=
    State.byteAt_storeFields_ne (s := s.entered) (frameFields_misses (mm := s.cfg.mem) _ _ _ _ _ _ hb)
  obtain ⟨m, hu⟩ := s.entered.storeFields_only_mem (s.frame e o ia)
  rw [← hstored, State.byteAt, deliver_cfg, deliver_mem_eq hsp haccepts, hu]
  rfl

end

/-- The three fields of every frame, and the fourth of format 2. -/
theorem State.mem_frame (s : State) (e : Exc) (o : Origin) (ia : Word) :
    (s.frameBase e, 2, s.sr.setWidth 32) ∈ s.frame e o ia ∧
    (s.frameBase e + 2, 4, e.stackedPC o ia s.pc) ∈ s.frame e o ia ∧
    (s.frameBase e + 6, 2, formatWord (e.format s.cfg.model) e.vector) ∈ s.frame e o ia ∧
    (e.format s.cfg.model = 2 → (s.frameBase e + 8, 4, ia) ∈ s.frame e o ia) := by
  unfold State.frame frameFields
  refine ⟨by simp, by simp, by simp, fun h => ?_⟩
  rw [h]
  simp

/-- Settles O43: the frame is stored field by field and reads back, and the handler is entered from plain memory. -/
theorem exceptionDelivery : Obligations.ExceptionDelivery := by
  unfold Obligations.ExceptionDelivery
  intro s e o ia fmt a va t v hwf hsp h0 h2 h6 h8 hva hvector hv hhandler
  have haccepts : ∀ f ∈ s.frame e o ia, s.cfg.mem.accepts .write 5 f.1 f.2.1 = true := State.frame_forall h0 h2 h6 h8
  obtain ⟨hm0, hm2, hm6, hm8⟩ := s.mem_frame e o ia
  have hformat := formatWord_toNat e s.cfg.model
  have hvec := e.vector_lt
  refine ⟨?whole, deliver_sr .., deliver_field hsp haccepts hwf hm0 (by decide) ?word,
    deliver_field hsp haccepts hwf hm2 (by decide) (BitVec.isLt _),
    deliver_field hsp haccepts hwf hm6 (by decide) ?format,
    fun h => deliver_field hsp haccepts hwf (hm8 h) (by decide) (BitVec.isLt _),
    fun fc b hb => deliver_byteAt_ne hsp haccepts hb⟩
  case whole =>
    have hv' : v = _ := deliver_bytesAt hsp haccepts 5 va 4
    have hword : t.bytesAt 6 v 2 = _ := deliver_bytesAt hsp haccepts 6 v 2
    have hmem : t.mem = _ := deliver_mem_eq hsp haccepts
    have hok := deliver_ok hsp (State.framed_of_accepts haccepts) hva hvector (hv' ▸ hv) (hv' ▸ hhandler)
    rw [State.setSP_storeFields] at hok
    rw [hmem, hword, hv']
    exact hok
  case word =>
    rw [BitVec.toNat_setWidth]
    exact Nat.lt_of_le_of_lt (Nat.mod_le ..) s.sr.isLt
  case format =>
    show (formatWord _ _).toNat < 2 ^ (8 * 2)
    rw [hformat]
    rcases e.format_eq s.cfg.model with h | h
    all_goals omega

/-! ## A delivery that fails (R461) -/

/-- However many of the frame's writes succeed, they and the free bytes stay within the frame. -/
theorem deliver_unframed_byteAt {s u : State} {e : Exc} {o : Origin} {ia : Word} (hsp : odd s.entered.getSP = false)
    (hf : s.framed e o ia = (false, u)) {fc : FC} {b : Word}
    (hb : ∀ k < frameBytes (e.format s.cfg.model),
      s.cfg.mem.key fc b ≠ s.cfg.mem.key 5 (s.frameBase e + BitVec.ofNat 32 k)) :
    (deliver e o ia s).byteAt fc b = s.byteAt fc b := by
  have hwritten : (s.framed e o ia).2.byteAt fc b = s.byteAt fc b :=
    State.byteAt_putFields_ne (s := s.entered) (frameFields_misses (mm := s.cfg.mem) _ _ _ _ _ _ hb)
  obtain ⟨m, k, hu⟩ := State.framed_only hf
  have hcfg : u.cfg = s.cfg := by
    rw [hu]
    rfl
  rw [hf] at hwritten
  rw [deliver_unframed hsp hf, ← hwritten]
  exact u.byteAt_drawBytes_ne 5 fc _ b _ (by rwa [hcfg])

/-- Settles O44: the delivery stops where the stack pointer, the frame, the vector or the handler fails. -/
theorem doubleFault : Obligations.DoubleFault := by
  unfold Obligations.DoubleFault
  intro s e o ia fmt a va t
  refine ⟨fun hsp => deliver_odd hsp, fun hsp hframed => ?_, fun u hsp hf => ⟨fun hva => ?_, fun hva hget => ?_,
    fun v x hva hget => ?_⟩⟩
  · rcases hf : s.framed e o ia with ⟨b, u⟩
    obtain rfl : b = false := by rwa [hf] at hframed
    refine ⟨?_, fun _ fc b hb => deliver_unframed_byteAt hsp hf hb⟩
    obtain ⟨m, k, rfl⟩ := State.framed_only hf
    obtain ⟨m', k', hd⟩ := State.drawBytes_only_mem { s.entered with mem := m, draws := k } 5 a (frameBytes fmt)
    have ht : t = _ := deliver_unframed hsp hf
    rw [hd] at ht
    rw [ht]
    rfl
  all_goals
    have hvbr := State.framed_vbrEff hf a
    have ht : t = (u.setSP a).enterHandler e.vector := deliver_framed hsp hf
    rw [ht]
  · exact State.enterHandler_odd (by rwa [hvbr])
  · have hunread := State.enterHandler_unread (s := u.setSP a) (vec := e.vector) (by rwa [hvbr])
      (by rwa [hvbr, State.memGet_setSP])
    rw [hvbr, State.called_setSP] at hunread
    exact hunread
  · have hread := (State.enterHandler_read (s := u.setSP a) (vec := e.vector) (v := v) (by rwa [hvbr])
      (by rwa [hvbr, State.memGet_setSP])).1
    rw [hvbr, State.called_setSP] at hread
    exact hread x

/-! ## RTE as the first instruction of a handler (R465) -/

/-- Plain memory serves every access (R76). -/
theorem State.plainHost.accepts {s : State} (h : s.plainHost) (it : Intent) (fc : FC) (a : Word) (n : Nat) :
    s.cfg.mem.accepts it fc a n = true := by
  obtain ⟨hholes, htop, hrom, hown⟩ := h
  have hnone : touches [] fc a n = false := by simp [touches]
  rw [MemMap.accepts_iff, MemMap.answer, hown, hrom, hnone, htop]
  simp [MemMap.byteOk, hholes]

theorem State.valueAt_of_plainHost {s : State} (h : s.plainHost) {a : Word} (ha : odd a = false) (fc : FC) (sz : Size) :
    s.valueAt (.mem fc a) sz = some (s.bytesAt fc a sz.bytes) := if_pos ⟨.inr ha, h.accepts ..⟩

theorem odd_eq (a : Word) : odd a = decide (a.toNat % 2 = 1) := by
  rw [odd, ← BitVec.testBit_toNat, Nat.testBit_zero]

/-- An even offset keeps the parity. -/
theorem odd_add {a b : Word} (hb : odd b = false) : odd (a + b) = odd a := by
  rw [odd_eq, decide_eq_false_iff_not] at hb
  rw [odd_eq, odd_eq, BitVec.toNat_add]
  exact decide_eq_decide.2 (by omega)

theorem odd_sub {a b : Word} (hb : odd b = false) : odd (a - b) = odd a := by
  rw [← odd_add hb, BitVec.sub_add_cancel]

theorem State.frameBase_even {s : State} (hsp : odd s.entered.getSP = false) (e : Exc) :
    odd (s.frameBase e) = false := by
  have hsize : odd (BitVec.ofNat 32 (frameBytes (e.format s.cfg.model))) = false := by
    rcases e.format_eq s.cfg.model with h | h
    all_goals
      rw [h]
      decide
  rw [State.frameBase, odd_sub hsize]
  exact hsp

/-- A write of the old status word and of the old A7 undoes the entry (R465). -/
theorem State.restore_entered {s : State} (h : s.Inv) (sp : Word) :
    ((s.entered.setSP sp).setSP s.entered.getSP).setSR s.sr = s := by
  rw [State.setSP_setSP, State.setSP_getSP, State.setSR, State.entered]
  show { s with sr := s.sr &&& s.cfg.model.srMask } = s
  rw [h.sr_masked]

theorem State.restore_handler {s : State} (h : s.Inv) (sp p : Word) (w : Half) (m : Memory) :
    (({ s.entered.setSP sp with mem := m, pc := p, opcode := w } : State).setSP s.entered.getSP).setSR s.sr =
      { s with mem := m, pc := p, opcode := w } := by
  have hset : ({ s.entered.setSP sp with mem := m, pc := p, opcode := w } : State).setSP s.entered.getSP =
      { (s.entered.setSP sp).setSP s.entered.getSP with mem := m, pc := p, opcode := w } :=
    (State.setSP_withCode { s.entered.setSP sp with mem := m } _ p w).trans (by rw [State.setSP_withMem])
  rw [hset]
  exact congrArg (fun x : State => { x with mem := m, pc := p, opcode := w }) (State.restore_entered h sp)

/-- The format and the vector share the format word (R454, R455). -/
theorem formatWord_div (e : Exc) (m : Model) :
    (formatWord (e.format m) e.vector).toNat / 4096 = e.format m := by
  have hv := e.vector_lt
  rw [formatWord_toNat]
  omega

section
variable {s : State} {e : Exc} {o : Origin} {ia : Word}

/-- RTE in the state that a delivery has left reads back the frame (R416). -/
theorem returnFromException_deliver (hinv : s.Inv) (hplain : s.plainHost) (hsp : odd s.entered.getSP = false)
    {p : Word} {w : Half} {m : Memory} {t : State}
    (ht : t = { s.entered.setSP (s.frameBase e) with mem := m, pc := p, opcode := w })
    (hsr : t.bytesAt 5 (s.frameBase e) 2 = s.sr.setWidth 32)
    (hpc : t.bytesAt 5 (s.frameBase e + 2) 4 = e.stackedPC o ia s.pc)
    (hformat : t.bytesAt 5 (s.frameBase e + 6) 2 = formatWord (e.format s.cfg.model) e.vector) :
    returnFromException t = .ok () { s with pc := e.stackedPC o ia s.pc, mem := m, opcode := w } := by
  have ha := State.frameBase_even hsp e
  have hgetSP : t.getSP = s.frameBase e := (congrArg State.getSP ht).trans (State.getSP_setSP ..)
  have hplain' : t.plainHost := by
    have hcfg : t.cfg = s.cfg := (congrArg State.cfg ht).trans (State.setSP_cfg ..)
    rwa [State.plainHost, hcfg]
  have hread {x : Word} (hx : odd x = false) (sz : Size) := State.valueAt_of_plainHost hplain' hx 5 sz
  have hret := returnFromException_ok (s := t)
    (by rw [hgetSP]; exact (hread ha .w).trans (congrArg some hsr))
    (by rw [hgetSP]; exact (hread ((odd_add (by decide)).trans ha) .l).trans (congrArg some hpc))
    (by rw [hgetSP]; exact (hread ((odd_add (by decide)).trans ha) .w).trans (congrArg some hformat))
    (by rw [formatWord_div]; exact e.format_eq _)
  have hback : s.frameBase e + BitVec.ofNat 32 (frameBytes (e.format s.cfg.model)) = s.entered.getSP :=
    BitVec.sub_add_cancel ..
  have hword : (s.sr.setWidth 32).setWidth 16 = s.sr := by simp
  rw [formatWord_div, hgetSP, hback, hword, ht, State.restore_handler hinv] at hret
  rw [ht]
  exact hret

end

/-- Settles O45: the first step of the handler is RTE, which reads back the frame that the delivery wrote. -/
theorem exceptionReturn : Obligations.ExceptionReturn := by
  unfold Obligations.ExceptionReturn
  intro s e o ia va t hinv hplain hrun hsp hva hv hopcode
  obtain ⟨ht, hsr, h0, h2, h6, -⟩ := exceptionDelivery s e o ia hinv.mem_wf hsp (hplain.accepts ..) (hplain.accepts ..)
    (hplain.accepts ..) (fun _ => hplain.accepts ..) hva (hplain.accepts ..) hv (hplain.accepts ..)
  have htraced : t.traced = false := by
    rw [State.traced, hsr]
    simp
  have hstep : step t = exec .rte t := stepRunsEncoded t .rte 0x4E73 [] rfl rfl
    ((congrArg State.run ht).trans ((State.setSP_run ..).trans hrun)) htraced rfl hopcode (by simp)
  have hbytes (x : Word) (n : Nat) : t.started.bytesAt 5 x n = t.bytesAt 5 x n :=
    State.bytesAt_mem_congr (s := t) (t := t.started) rfl rfl 5 x n
  have hword : (t.bytesAt 6 (t.bytesAt 5 va 4) 2).setWidth 16 = 0x4E73#16 :=
    (congrArg State.opcode ht).symm.trans hopcode
  have hstarted : t.started = { s.entered.setSP (s.frameBase e) with
      mem := t.mem, pc := t.bytesAt 5 va 4 + 2, opcode := 0x4E73#16 } := by
    rw [← hword]
    exact congrArg State.started ht
  have hreturn := returnFromException_deliver hinv hplain hsp hstarted ((hbytes ..).trans h0) ((hbytes ..).trans h2)
    ((hbytes ..).trans h6)
  rw [hstep]
  exact cycle_ok ((bind_ok (privileged_started (deliver_supervisor ..))).trans hreturn)

end Sys2Proof.Machine
end

section
/-! SUPPORT. Refusals (R108, R120, R131): the operations that never refuse, and that every instruction refuses only on
mc68020, a pattern or a brief word that only the MC68020 has. -/

namespace Sys2Proof.Machine

/-! ## Operations that never refuse -/

/-- The operation ends well or with an Operation Result, in every state. -/
def Quiet {α : Type} (m : Op α) : Prop := ∀ s r t, m s ≠ .error (.refuse r) t

namespace Quiet

variable {α β : Type}

theorem of_ok {m : Op α} (h : ∀ s, ∃ a t, m s = .ok a t) : Quiet m := fun s r t he => by
  obtain ⟨a, u, hm⟩ := h s
  rw [hm] at he
  cases he

/-- Reads and writes of registers in a row end well whatever they read: the operation runs through. -/
theorem straight {f : State → α} {g : State → State} :
    Quiet fun s => .ok (f s) (g s) := of_ok fun s => ⟨f s, g s, rfl⟩

theorem raise {e : Exc} : Quiet (Machine.raise e : Op α) := fun _ _ _ h => nomatch h

theorem bind {m : Op α} {k : α → Op β} (hm : Quiet m) (hk : ∀ a, Quiet (k a)) : Quiet (m >>= k) := by
  intro s r t h
  cases hr : m s with
  | ok a u =>
    rw [bind_ok hr] at h
    exact hk a u r t h
  | error e u =>
    rw [bind_error hr] at h
    cases h
    exact hm s r t hr

theorem ite {c : Prop} [Decidable c] {m n : Op α} (hm : Quiet m) (hn : Quiet n) : Quiet (if c then m else n) := by
  split
  · exact hm
  · exact hn

theorem privileged : Quiet Machine.privileged := fun s r t h => by
  unfold Machine.privileged at h
  split at h <;> cases h

theorem from68010 : Quiet Machine.from68010 := fun s r t h => by
  unfold Machine.from68010 at h
  split at h <;> cases h

theorem memReadFC {fc : FC} {a : Word} {n : Nat} : Quiet (Machine.memReadFC fc a n) := fun s r t h => by
  unfold Machine.memReadFC at h
  split at h
  · cases h
  · split at h <;> cases h

theorem memWriteFC {fc : FC} {a v : Word} {n : Nat} : Quiet (Machine.memWriteFC fc a n v) := fun s r t h => by
  unfold Machine.memWriteFC at h
  split at h
  · cases h
  · split at h <;> cases h

theorem memRead {a : Word} {n : Nat} : Quiet (Machine.memRead a n) := fun s => memReadFC s

theorem memWrite {a v : Word} {n : Nat} : Quiet (Machine.memWrite a n v) := fun s => memWriteFC s

theorem fetchExt : Quiet Machine.fetchExt := fun s r t h => by
  unfold Machine.fetchExt at h
  split at h <;> cases h

theorem takeExt {n : Nat} : Quiet (Machine.takeExt n) := by
  induction n with
  | zero => exact .straight
  | succ n ih => exact .bind .fetchExt fun _ => ih

theorem readG {r : GReg} : Quiet (Machine.readG r) := .of_ok fun s => ⟨_, _, readG_run r s⟩

theorem writeG {r : GReg} {v : Word} : Quiet (Machine.writeG r v) := .of_ok fun s => ⟨_, _, writeG_run r v s⟩

theorem writeMoves {sz : Size} {r : GReg} {v : Word} : Quiet (Machine.writeMoves sz r v) :=
  .of_ok fun s => ⟨_, _, writeMoves_run sz r v s⟩

theorem readEA {loc : Loc} {sz : Size} : Quiet (Machine.readEA loc sz) := by
  cases loc with
  | mem fc a => exact .memReadFC
  | dreg n | areg n | imm v => exact .straight

theorem writeEA {loc : Loc} {sz : Size} {v : Word} : Quiet (Machine.writeEA loc sz v) := by
  cases loc with
  | mem fc a => exact .memWriteFC
  | dreg n | areg n | imm v => exact .straight

theorem pushLong {v : Word} : Quiet (Machine.pushLong v) :=
  .bind .straight fun _ => .bind .straight fun _ => .memWrite

theorem popLong : Quiet Machine.popLong := .bind .straight fun _ => .bind .memRead fun _ => .straight

/-- The end of a rule that writes back to its location. -/
theorem store {loc : Loc} {sz : Size} {v : Word} {k : Unit → Op β} (hk : ∀ u, Quiet (k u)) :
    Quiet (Machine.writeEA loc sz v >>= k) := .bind .writeEA hk

theorem undefinedFlag {old : Bool} : Quiet (Machine.undefinedFlag old) :=
  .of_ok fun s => by
    obtain ⟨b, k, h, -⟩ := undefinedFlag_ok old s
    exact ⟨b, _, h⟩

theorem bcdFlags {res : Byte} {c : Bool} : Quiet (Machine.bcdFlags res c) :=
  .bind .straight fun _ => .bind .undefinedFlag fun _ => .bind .undefinedFlag fun _ => .straight

theorem divZeroFlags : Quiet Machine.divZeroFlags := .of_ok fun s => by
  obtain ⟨n, z, v, k, h, -⟩ := divZeroFlags_ok s
  exact ⟨(), _, h⟩

theorem divOverflowFlags : Quiet Machine.divOverflowFlags := .of_ok fun s => by
  cases h : s.cfg.divOverflow with
  | unchanged => exact ⟨(), s, divOverflowFlags_unchanged h⟩
  | silicon =>
    obtain ⟨n, z, k, h, -⟩ := divOverflowFlags_silicon h
    exact ⟨(), _, h⟩

theorem chkFlags {n : Bool} : Quiet (Machine.chkFlags n) := .of_ok fun s => by
  obtain ⟨z, v, c, k, h, -⟩ := chkFlags_ok n s
  exact ⟨(), _, h⟩

theorem storeRegs {sz : Size} {fc : FC} {rs : List GReg} {a : Word} : Quiet (Machine.storeRegs sz fc rs a) := by
  induction rs generalizing a with
  | nil => exact .straight
  | cons r rs ih => exact .bind .readG fun _ => .bind .memWriteFC fun _ => ih

theorem storeRegsDown {sz : Size} {an : RegNo} {count : Nat} {rs : List GReg} {a : Word} :
    Quiet (Machine.storeRegsDown sz an count rs a) := by
  induction rs generalizing a with
  | nil => exact .straight
  | cons r rs ih =>
    exact .bind (.of_ok fun s => ⟨_, _, storedValue_run sz an count r s⟩) fun _ => .bind .memWrite fun _ => ih

theorem loadRegs {sz : Size} {fc : FC} {rs : List GReg} {a : Word} : Quiet (Machine.loadRegs sz fc rs a) := by
  induction rs generalizing a with
  | nil => exact .straight
  | cons r rs ih => exact .bind .memReadFC fun _ => .bind .writeG fun _ => ih

theorem storeAlternate {v : Word} {n : Nat} {a : Word} : Quiet (Machine.storeAlternate v n a) := by
  induction n generalizing a with
  | zero => exact .straight
  | succ n ih => exact .bind .memWrite fun _ => ih

theorem loadAlternate {n : Nat} {a : Word} : Quiet (Machine.loadAlternate n a) := by
  induction n generalizing a with
  | zero => exact .straight
  | succ n ih => exact .bind .memRead fun _ => .bind ih fun _ => .straight

theorem readDisp {d : BranchDisp} : Quiet (Machine.readDisp d) := by
  cases d with
  | short b => exact .straight
  | word w => exact .bind .fetchExt fun _ => .straight

theorem branchRule {c : Cond} {d : BranchDisp} : Quiet (Machine.branchRule c d) :=
  .bind .straight fun _ => .bind .readDisp fun _ => .bind .straight fun _ => .ite .straight .straight

theorem bsrRule {d : BranchDisp} : Quiet (Machine.bsrRule d) :=
  .bind .straight fun _ => .bind .readDisp fun _ => .bind .straight fun _ => .bind .pushLong fun _ => .straight

theorem shiftRegRule {k : ShiftKind} {sz : Size} {c : ShiftCount} {dn : RegNo} :
    Quiet (Machine.shiftRegRule k sz c dn) := by
  cases c with
  | quick q | reg n => exact .straight

theorem bcdRegReg {f : BcdOp} {dx dy : RegNo} : Quiet (Machine.bcdRegReg f dx dy) :=
  .bind .straight fun _ => .bind .straight fun _ => .bind .straight fun _ => .bind .straight fun _ => .bcdFlags

theorem movecStart {code : BitVec 12} {a : Word} : Quiet (Machine.movecStart code a) := by
  refine .bind .from68010 fun _ => .bind .privileged fun _ => .bind .fetchExt fun _ => .bind .straight fun m => ?_
  split
  · exact .bind .straight fun _ => .raise
  · exact .ite .straight (.bind .straight fun _ => .raise)

theorem returnFromException : Quiet Machine.returnFromException := by
  refine .bind .straight fun _ => .bind .memReadFC fun _ => .bind .memReadFC fun _ => .bind .memReadFC fun _ => ?_
  split
  · exact .straight
  · exact .straight
  · exact .raise

end Quiet

/-! ## What may be refused -/

/-- A refusal that the spec makes: on mc68020, of a brief word or of a pattern that only the MC68020 has (R108, R120). -/
def Refusable (m : Model) (r : Refusal) : Prop :=
  m = .mc68020 ∧ (r = .extensionWord68020 ∨ ∃ name, r = .mc68020Only name)

/-- Under the parameters `c` the operation refuses only what may be refused. -/
def Declines {α : Type} (c : Params) (m : Op α) : Prop :=
  ∀ s r t, s.cfg = c → m s = .error (.refuse r) t → Refusable c.model r

/-- The parameters survive every write (R7). -/
theorem stable_cfg (c : Params) : Stable fun s => s.cfg = c where
  setD _ _ _ h := h
  setA s n v h := (s.setA_cfg n v).trans h
  setPC _ _ h := h
  setCCR _ _ h := h
  putByte _ _ _ _ h := h
  setDraws _ _ h := h

namespace Declines

variable {α β : Type} {c : Params}

theorem quiet {m : Op α} (h : Quiet m) : Declines c m := fun s r t _ hr => absurd hr (h s r t)

theorem bind {m : Op α} {k : α → Op β} (hkeeps : Keeps (fun s => s.cfg = c) m) (hm : Declines c m)
    (hk : ∀ a, Declines c (k a)) : Declines c (m >>= k) := by
  intro s r t hs h
  have hu := hkeeps s hs
  cases hr : m s with
  | ok a u =>
    rw [bind_ok hr] at h
    rw [hr] at hu
    exact hk a u r t hu h
  | error e u =>
    rw [bind_error hr] at h
    cases h
    exact hm s r t hs hr

/-- Nothing after the operation is refused. -/
theorem then_quiet {m : Op α} {k : α → Op β} (hm : Declines c m) (hk : ∀ a, Quiet (k a)) : Declines c (m >>= k) := by
  intro s r t hs h
  cases hr : m s with
  | ok a u =>
    rw [bind_ok hr] at h
    exact absurd h (hk a u r t)
  | error e u =>
    rw [bind_error hr] at h
    cases h
    exact hm s r t hs hr

theorem after_quiet {m : Op α} {k : α → Op β} (hkeeps : Keeps (fun s => s.cfg = c) m) (hm : Quiet m)
    (hk : ∀ a, Declines c (k a)) : Declines c (m >>= k) := .bind hkeeps (.quiet hm) hk

theorem ite {p : Prop} [Decidable p] {m n : Op α} (hm : Declines c m) (hn : Declines c n) :
    Declines c (if p then m else n) := by
  split
  · exact hm
  · exact hn

theorem only68020 {name : String} : Declines c (Machine.only68020 name) := fun s r t hs h => by
  unfold Machine.only68020 at h
  split at h
  next h20 =>
    cases h
    exact ⟨Model.is20_iff.1 (hs ▸ h20), .inr ⟨name, rfl⟩⟩
  next => cases h

theorem checkBrief {ea : Ea} : Declines c (Machine.checkBrief ea) := fun s r t hs h => by
  unfold Machine.checkBrief at h
  split at h
  next h20 =>
    cases h
    exact ⟨Model.is20_iff.1 (hs ▸ (Bool.and_eq_true_iff.1 h20).1), .inl rfl⟩
  next => cases h

theorem refuse32 {d : BranchDisp} : Declines c (Machine.refuse32 d) := fun s r t hs h => by
  rw [Machine.refuse32, readModel_bind] at h
  split at h
  next h20 =>
    cases h
    exact ⟨Model.is20_iff.1 (hs ▸ (Bool.and_eq_true_iff.1 h20).1), .inr ⟨_, rfl⟩⟩
  next => cases h

theorem calcEA {ea : Ea} {sz : Size} : Declines c (Machine.calcEA ea sz) :=
  .after_quiet .readPC .straight fun _ => .after_quiet (stable_cfg c).takeExt .takeExt fun _ =>
    .then_quiet .checkBrief fun _ => .straight

theorem fetchEA {ea : Ea} {sz : Size} : Declines c (Machine.fetchEA ea sz) := .then_quiet .calcEA fun _ => .readEA

theorem openEA {ea : Ea} {sz : Size} : Declines c (Machine.openEA ea sz) :=
  .then_quiet .calcEA fun _ => .bind .readEA fun _ => .straight

theorem predecPair {sz : Size} {ay ax : RegNo} : Declines c (Machine.predecPair sz ay ax) :=
  .bind (stable_cfg c).fetchEA .fetchEA fun _ => .then_quiet .openEA fun _ => .straight

theorem aluToReg {f : Alu} {sz : Size} {dn : RegNo} {ea : Ea} : Declines c (Machine.aluToReg f sz dn ea) :=
  .then_quiet .fetchEA fun _ => .straight

theorem aluToEa {f : Alu} {sz : Size} {dn : RegNo} {ea : Ea} : Declines c (Machine.aluToEa f sz dn ea) :=
  .then_quiet .openEA fun _ => .bind .straight fun _ => .bind .straight fun _ => .store fun _ => .straight

theorem aluImm {f : Alu} {sz : Size} {imm : Word} {ea : Ea} : Declines c (Machine.aluImm f sz imm ea) :=
  .bind (stable_cfg c).fetchEA .fetchEA fun _ => .then_quiet .openEA fun _ => .bind .straight fun _ =>
    .store fun _ => .straight

theorem aluMemMem {f : Alu} {sz : Size} {ax ay : RegNo} : Declines c (Machine.aluMemMem f sz ax ay) :=
  .then_quiet .predecPair fun _ => .bind .straight fun _ => .store fun _ => .straight

theorem aluUnary {f : Alu1} {sz : Size} {ea : Ea} : Declines c (Machine.aluUnary f sz ea) :=
  .then_quiet .openEA fun _ => .bind .straight fun _ => .store fun _ => .straight

theorem addressOp {f : Word → Word → Word} {sz : Size} {an : RegNo} {ea : Ea} :
    Declines c (Machine.addressOp f sz an ea) := .then_quiet .fetchEA fun _ => .straight

theorem quickOp {f : Alu} {g : Word → Word → Word} {sz : Size} {q : RegNo} {ea : Ea} :
    Declines c (Machine.quickOp f g sz q ea) := by
  unfold Machine.quickOp
  split
  · exact .quiet .straight
  · exact .then_quiet .openEA fun _ => .bind .straight fun _ => .store fun _ => .straight

theorem mulRule {f : Half → Half → Word} {dn : RegNo} {ea : Ea} : Declines c (Machine.mulRule f dn ea) :=
  .then_quiet .fetchEA fun _ => .straight

theorem bcdMemMem {f : BcdOp} {ax ay : RegNo} : Declines c (Machine.bcdMemMem f ax ay) :=
  .then_quiet .predecPair fun _ => .bind .straight fun _ => .store fun _ => .bcdFlags

theorem bitTest {n : Nat} {ea : Ea} : Declines c (Machine.bitTest n ea) := .then_quiet .openEA fun _ => .straight

theorem bitWrite {f : Word → Word → Word} {n : Nat} {ea : Ea} : Declines c (Machine.bitWrite f n ea) :=
  .then_quiet .bitTest fun _ => .writeEA

theorem bitOnly {n : Nat} {ea : Ea} : Declines c (Machine.bitOnly n ea) := .then_quiet .bitTest fun _ => .straight

theorem staticBit {bit : Byte} {k : Nat → Op Unit} (hk : ∀ n, Declines c (k n)) :
    Declines c (Machine.staticBit bit k) := .after_quiet (stable_cfg c).fetchExt .fetchExt fun _ => hk _

theorem dynamicBit {dn : RegNo} {k : Nat → Op Unit} (hk : ∀ n, Declines c (k n)) :
    Declines c (Machine.dynamicBit dn k) := .after_quiet .readD .straight fun _ => hk _

theorem moveRule {sz : Size} {src dst : Ea} : Declines c (Machine.moveRule sz src dst) :=
  .bind (stable_cfg c).fetchEA .fetchEA fun _ => .then_quiet .calcEA fun _ => .store fun _ => .straight

theorem moveaRule {sz : Size} {an : RegNo} {src : Ea} : Declines c (Machine.moveaRule sz an src) :=
  .then_quiet .fetchEA fun _ => .straight

theorem shiftMemRule {k : ShiftKind} {ea : Ea} : Declines c (Machine.shiftMemRule k ea) :=
  .then_quiet .openEA fun _ => .bind .straight fun _ => .store fun _ => .straight

end Declines

/-! ## Every instruction -/

/-- Every instruction but the breakpoint is one cycle, whose rule refuses only what may be refused. -/
theorem exec_declines (i : Instr) (s : State) (hi : ∀ v, i ≠ .bkpt v) :
    ∃ ts rule, exec i s = cycle ts rule s ∧ Declines s.cfg rule := by
  have hc := stable_cfg s.cfg
  cases i
  case bkpt v => exact absurd rfl (hi v)
  all_goals
    simp only [exec]
    refine ⟨_, _, rfl, ?_⟩
  case oriCcr | andiCcr | eoriCcr => exact .quiet (.bind .fetchExt fun _ => .straight)
  case oriSr | andiSr | eoriSr => exact .quiet (.bind .privileged fun _ => .bind .fetchExt fun _ => .straight)
  case ori | andi | subi | addi | eori => exact .aluImm
  case btstI => exact .staticBit fun _ => .bitOnly
  case bchgI | bclrI | bsetI => exact .staticBit fun _ => .bitWrite
  case btstD => exact .dynamicBit fun _ => .bitOnly
  case bchgD | bclrD | bsetD => exact .dynamicBit fun _ => .bitWrite
  case tas => exact .then_quiet .openEA fun _ => .bind .straight fun _ => .writeEA
  case moves =>
    exact .after_quiet .from68010 .from68010 fun _ => .after_quiet .privileged .privileged fun _ =>
      .after_quiet hc.fetchExt .fetchExt fun _ => .after_quiet .readG .readG fun _ =>
      .then_quiet .calcEA fun _ => .ite .memWriteFC (.bind .memReadFC fun _ => .writeMoves)
  case movepLoadW | movepLoadL =>
    exact .quiet (.bind .fetchExt fun _ => .bind .straight fun _ => .bind .loadAlternate fun _ => .straight)
  case movepStoreW | movepStoreL =>
    exact .quiet (.bind .fetchExt fun _ => .bind .straight fun _ => .bind .straight fun _ => .storeAlternate)
  case moveB | moveL | moveW => exact .moveRule
  case moveaL | moveaW => exact .moveaRule
  case neg | negx | notEa => exact .aluUnary
  case moveFromSr =>
    exact .after_quiet .readModel .straight fun _ => .ite
      (.after_quiet .privileged .privileged fun _ => .then_quiet .calcEA fun _ => .bind .straight fun _ => .writeEA)
      (.then_quiet .calcEA fun _ => .bind .straight fun _ => .writeEA)
  case moveFromCcr =>
    exact .after_quiet .from68010 .from68010 fun _ => .then_quiet .calcEA fun _ => .bind .straight fun _ => .writeEA
  case moveToCcr => exact .then_quiet .fetchEA fun _ => .straight
  case moveToSr => exact .after_quiet .privileged .privileged fun _ => .then_quiet .fetchEA fun _ => .straight
  case moveToUsp | moveFromUsp => exact .quiet (.bind .privileged fun _ => .straight)
  case movecFrom => exact .quiet (.bind .movecStart fun _ => .bind .straight fun _ => .writeG)
  case movecTo => exact .quiet (.bind .movecStart fun _ => .bind .readG fun _ => .straight)
  case chk =>
    exact .then_quiet .fetchEA fun _ => .bind .straight fun _ => .ite (.bind .chkFlags fun _ => .raise)
      (.ite (.bind .chkFlags fun _ => .raise) .straight)
  case lea | jmp => exact .then_quiet .calcEA fun _ => .straight
  case pea => exact .then_quiet .calcEA fun _ => .pushLong
  case jsr => exact .then_quiet .calcEA fun _ => .bind .straight fun _ => .bind .pushLong fun _ => .straight
  case clr => exact .then_quiet .calcEA fun _ => .store fun _ => .straight
  case scc => exact .then_quiet .calcEA fun _ => .bind .straight fun _ => .writeEA
  case tst => exact .then_quiet .fetchEA fun _ => .straight
  case nbcd => exact .then_quiet .openEA fun _ => .bind .straight fun _ => .store fun _ => .bcdFlags
  case swap | extL | extW | moveq | nop | exgDD | exgAA | exgDA | subxReg | addxReg => exact .quiet .straight
  case movemToMem =>
    exact .after_quiet hc.fetchExt .fetchExt fun _ => .then_quiet .calcEA fun _ => .storeRegs
  case movemToPredec =>
    exact .quiet (.bind .fetchExt fun _ => .bind .straight fun _ => .bind .storeRegsDown fun _ => .straight)
  case movemFromMem =>
    exact .after_quiet hc.fetchExt .fetchExt fun _ => .then_quiet .calcEA fun _ => .bind .loadRegs fun _ => .straight
  case movemFromPostinc =>
    exact .quiet (.bind .fetchExt fun _ => .bind .straight fun _ => .bind .loadRegs fun _ => .straight)
  case illegal | trap | lineA | lineF => exact .quiet .raise
  case trapv => exact .quiet (.bind .straight fun _ => .ite .raise .straight)
  case reset => exact .quiet .privileged
  case stop => exact .quiet (.bind .privileged fun _ => .bind .fetchExt fun _ => .straight)
  case rte => exact .quiet (.bind .privileged fun _ => .returnFromException)
  case link =>
    exact .quiet (.bind .fetchExt fun _ => .bind .straight fun _ => .bind .straight fun _ =>
      .bind .straight fun _ => .bind .memWrite fun _ => .straight)
  case unlk =>
    exact .quiet (.bind .straight fun _ => .bind .straight fun _ => .bind .popLong fun _ => .straight)
  case rtd =>
    exact .quiet (.bind .from68010 fun _ => .bind .fetchExt fun _ => .bind .straight fun _ =>
      .bind .memRead fun _ => .straight)
  case rts => exact .quiet (.bind .popLong fun _ => .straight)
  case rtr =>
    exact .quiet (.bind .straight fun _ => .bind .memRead fun _ => .bind .straight fun _ =>
      .bind .popLong fun _ => .straight)
  case addq | subq => exact .quickOp
  case dbcc =>
    exact .quiet (.bind .straight fun _ => .bind .fetchExt fun _ => .bind .straight fun _ =>
      .ite .straight (.bind .straight fun _ => .bind .straight fun _ => .ite .straight .straight))
  case bra | bcc => exact .then_quiet .refuse32 fun _ => .branchRule
  case bsr => exact .then_quiet .refuse32 fun _ => .bsrRule
  case bccL => exact .then_quiet .refuse32 fun _ => .ite .bsrRule .branchRule
  case orToReg | subToReg | andToReg | addToReg => exact .aluToReg
  case orToMem | subToMem | eor | andToMem | addToMem => exact .aluToEa
  case subxMem | addxMem => exact .aluMemMem
  case suba | adda => exact .addressOp
  case divu | divs =>
    exact .then_quiet .fetchEA fun _ => .ite (.bind .divZeroFlags fun _ => .raise)
      (.bind .straight fun _ => .ite .divOverflowFlags .straight)
  case mulu | muls => exact .mulRule
  case sbcdReg | abcdReg => exact .quiet .bcdRegReg
  case sbcdMem | abcdMem => exact .bcdMemMem
  case cmp | cmpa => exact .then_quiet .fetchEA fun _ => .straight
  case cmpi | cmpm => exact .bind hc.fetchEA .fetchEA fun _ => .then_quiet .fetchEA fun _ => .straight
  case asrReg | aslReg | lsrReg | lslReg | roxrReg | roxlReg | rorReg | rolReg => exact .quiet .shiftRegRule
  case asrMem | aslMem | lsrMem | lslMem | roxrMem | roxlMem | rorMem | rolMem => exact .shiftMemRule
  case chk2Cmp2 | cas | rtm | callm | chkL | linkL | extbL | mulL | divL | trapcc | pack | unpk | bitField | tst20
      | cmpi20 =>
    exact .only68020

end Sys2Proof.Machine
end

section
/-! SUPPORT. The run condition and the counter over a step (R48, R130, R491), and what a step refuses (R120, R131). -/

namespace Sys2Proof.Machine

/-! ## What is refused -/

section
variable {i : Instr} {s : State} {r : Refusal}

/-- A breakpoint is never refused. -/
theorem exec_bkpt_next (v : RegNo) (s : State) : ∃ t, exec (.bkpt v) s = .next t := by
  cases h : s.cfg.bkptPresent with
  | false => exact ⟨_, (breakpoint s v).1 h⟩
  | true => exact ⟨_, ((breakpoint s v).2 h).1⟩

theorem exec_cases (i : Instr) (s : State) :
    (∃ t, exec i s = .next t) ∨ ∃ r, exec i s = .refused r ∧ Refusable s.cfg.model r := by
  by_cases hi : ∃ v, i = .bkpt v
  · obtain ⟨v, rfl⟩ := hi
    exact .inl (exec_bkpt_next v s)
  · obtain ⟨ts, rule, he, hdeclines⟩ := exec_declines i s fun v h => hi ⟨v, h⟩
    rw [he]
    rcases cycleWith_cases true ts rule s with ⟨t, -, h⟩ | ⟨e, t, -, h⟩ | ⟨e, t, -, h⟩ | ⟨r, t, hr, h⟩
    · exact .inl ⟨_, h⟩
    · exact .inl ⟨_, h⟩
    · exact .inl ⟨_, h⟩
    · exact .inr ⟨r, h, hdeclines s.started r t rfl hr⟩

/-- A step goes on, or is refused under trace, or refuses what only the MC68020 has. -/
theorem step_cases (hrun : s.run = .running) :
    (∃ t, step s = .next t) ∨ (s.traced = true ∧ step s = .refused .trace) ∨
      ∃ r, step s = .refused r ∧ Refusable s.cfg.model r := by
  cases ht : s.traced with
  | true => exact .inr (.inl ⟨rfl, step_of_traced hrun ht⟩)
  | false =>
    cases hf : s.fetched with
    | error x => exact .inl ⟨_, step_of_no_row hrun ht hf⟩
    | ok p =>
      rw [step_of_fetched hrun ht hf]
      exact (exec_cases p.1 s).imp_right .inr

end

/-! ## The end of a step -/

/-- The step from `s` kept the parameters and counted one instruction; the core runs on or was halted by a delivery. -/
structure RunsOn (s t : State) : Prop where
  cfg : t.cfg = s.cfg
  icount : t.icount = s.icount + 1
  run : t.run = .running ∨ t.run = .halted ∧ ∃ e o u, u.run = .running ∧ t = deliver e o s.pc u

section
variable {s u : State}

theorem runsOn_deliver (hcfg : u.cfg = s.cfg) (hicount : u.icount = s.icount) (hrun : u.run = .running) (e : Exc)
    (o : Origin) : RunsOn s (deliver e o s.pc u.counted) where
  cfg := (deliver_cfg ..).trans hcfg
  icount := (deliver_icount ..).trans (congrArg (· + 1) hicount)
  run := (deliver_run u.counted e o s.pc).imp (·.trans hrun) fun h => ⟨h, e, o, u.counted, hrun, rfl⟩

/-- An exception that the instruction takes before it did anything. -/
theorem runsOn_deliver_started (hrun : s.run = .running) (e : Exc) :
    RunsOn s (deliver e .execute s.pc s.started.counted) :=
  runsOn_deliver s.started_cfg s.started_icount (s.started_run.trans hrun) e .execute

theorem runsOn_finish (hcfg : u.cfg = s.cfg) (hicount : u.icount = s.icount) (hrun : u.run = .running) :
    RunsOn s (finish true s.pc u) := by
  cases hw : u.fetchWordAt u.pc with
  | ok w =>
    rw [finish_ok hrun hw]
    exact ⟨(State.afterFetch_cfg ..).trans hcfg, (State.afterFetch_icount ..).trans (congrArg (· + 1) hicount),
      .inl ((State.afterFetch_run ..).trans hrun)⟩
  | error e =>
    rw [finish_error hrun hw, State.counted_afterFetch]
    exact runsOn_deliver ((State.afterFetch_cfg ..).trans hcfg) ((State.afterFetch_icount ..).trans hicount)
      ((State.afterFetch_run ..).trans hrun) e .prefetch

/-- Every instruction but STOP and a breakpoint with a callback leaves the core running, or a delivery halts it. -/
theorem exec_runsOn {i : Instr} {t : State} (hrun : s.run = .running) (hstop : ∀ imm, i ≠ .stop imm)
    (hown : handsOver s i = false) (h : exec i s = .next t) : RunsOn s t := by
  rcases (exec_runs i s hown).outcome h with ⟨u, hu, hdone⟩ | ⟨u, e, rfl, hfreed, -⟩
  · have hr := (hdone.run hstop).trans hrun
    obtain rfl | ⟨e, -, -, rfl⟩ := hu
    · exact runsOn_finish hdone.cfg hdone.icount hr
    · exact runsOn_deliver hdone.cfg hdone.icount hr e .execute
  · exact runsOn_deliver hfreed.left.cfg hfreed.icount (hfreed.run.trans hrun) e .execute

/-! ## STOP (R417) -/

/-! A failed fetch of the operand of STOP frees flags alone. -/

theorem fetchState_ccr_cfg (m : Byte) (s u : State) : (fetchState [.ccr m] s u).cfg = s.cfg := rfl
theorem fetchState_ccr_run (m : Byte) (s u : State) : (fetchState [.ccr m] s u).run = s.run := rfl
theorem fetchState_ccr_icount (m : Byte) (s u : State) : (fetchState [.ccr m] s u).icount = s.icount := rfl

theorem stopCondition_cases (imm : Half) : imm = 0xFFFF#16 ∧ stopCondition imm = .finished ∨
    imm ≠ 0xFFFF#16 ∧ stopCondition imm = .stopped := by
  by_cases h : imm = 0xFFFF#16
  · exact .inl ⟨h, if_pos h⟩
  · exact .inr ⟨h, if_neg h⟩

theorem stopCondition_ne_running (imm : Half) : stopCondition imm ≠ .running := by
  rcases stopCondition_cases imm with ⟨-, h⟩ | ⟨-, h⟩
  all_goals
    rw [h]
    decide

/-- STOP takes an exception, or in supervisor mode ends the run with the condition that its operand names. -/
theorem exec_stop_cases {imm : Half} {t : State} (hrun : s.run = .running) (h : exec (.stop imm) s = .next t) :
    RunsOn s t ∨ s.supervisor = true ∧ t.cfg = s.cfg ∧ t.icount = s.icount + 1 ∧ t.run = stopCondition imm := by
  cases hsup : s.supervisor with
  | false =>
    rw [exec_privileged_user rfl rfl hsup] at h
    cases h
    exact .inl (runsOn_deliver_started hrun _)
  | true =>
    have hgate := privileged_started hsup
    cases hw : s.started.fetchWordAt s.started.pc with
    | error e =>
      have hx := (cycle_fetch ((bind_ok hgate).trans (bind_error (fetchExt_error hw)))).symm.trans h
      cases hx
      exact .inl (runsOn_deliver (fetchState_ccr_cfg ..) (fetchState_ccr_icount ..)
        ((fetchState_ccr_run ..).trans hrun) e .execute)
    | ok w =>
      have hfetch : fetchExt s.started =
          .ok () { s.started.afterFetch s.started.pc with pc := s.started.pc + 2 } := by
        simp only [fetchExt, hw]
      have hx := (cycle_ok ((bind_ok hgate).trans (bind_ok hfetch))).symm.trans h
      rw [finish, if_neg fun ⟨_, hr⟩ => stopCondition_ne_running imm hr] at hx
      cases hx
      exact .inr ⟨rfl, State.afterFetch_cfg .., congrArg (· + 1) (State.afterFetch_icount ..), rfl⟩

/-! ## The step -/

theorem handsOver_true {i : Instr} (h : handsOver s i = true) : s.cfg.bkptPresent = true ∧ ∃ v, i = .bkpt v := by
  cases i with
  | bkpt v => exact ⟨h, v, rfl⟩
  | _ => cases h

/-- A breakpoint with a callback keeps the parameters and the run condition. -/
theorem exec_handsOver {i : Instr} {t : State} (hown : handsOver s i = true) (h : exec i s = .next t) :
    t.cfg = s.cfg ∧ t.run = s.run := by
  obtain ⟨hpresent, v, rfl⟩ := handsOver_true hown
  rw [((breakpoint s v).2 hpresent).1] at h
  cases h
  obtain ⟨-, hrun, hcfg⟩ := s.edited_opcode_run_cfg (bkptCallback s v)
  exact ⟨hcfg, hrun⟩

/-- A step leaves the core running or halted by a delivery, or is a STOP in supervisor mode, or hands the state to the
callback. -/
theorem step_end {t : State} (hrun : s.run = .running) (h : step s = .next t) :
    RunsOn s t ∨
    (s.supervisor = true ∧ t.cfg = s.cfg ∧ t.icount = s.icount + 1 ∧
      ∃ imm rest, s.fetched = .ok (.stop imm, rest) ∧ t.run = stopCondition imm) ∨
    (¬ s.ownStep ∧ t.cfg = s.cfg ∧ t.run = .running) := by
  cases htr : s.traced with
  | true =>
    rw [step_of_traced hrun htr] at h
    cases h
  | false =>
    cases hf : s.fetched with
    | error x =>
      rw [step_of_no_row hrun htr hf] at h
      cases h
      exact .inl (runsOn_deliver_started hrun _)
    | ok p =>
      obtain ⟨i, rest⟩ := p
      rw [step_of_fetched hrun htr hf] at h
      cases hown : handsOver s i with
      | true =>
        obtain ⟨hcfg, hr⟩ := exec_handsOver hown h
        exact .inr (.inr ⟨fun hall => Bool.noConfusion ((hall i rest hf).symm.trans hown), hcfg, hr.trans hrun⟩)
      | false =>
        by_cases hstop : ∃ imm, i = .stop imm
        · obtain ⟨imm, rfl⟩ := hstop
          exact (exec_stop_cases hrun h).imp_right fun ⟨hsup, hcfg, hicount, hr⟩ =>
            .inl ⟨hsup, hcfg, hicount, imm, rest, rfl, hr⟩
        · exact .inl (exec_runsOn hrun (fun imm hi => hstop ⟨imm, hi⟩) hown h)

end

/-- Settles O49: from the three ways a step ends. -/
theorem runTransitions : Obligations.RunTransitions := by
  unfold Obligations.RunTransitions
  intro s hrun
  refine ⟨fun r h => ?_, fun htr hmodel => ?_, fun t h => ?_⟩
  · rcases step_cases hrun with ⟨t, ht⟩ | ⟨htr, hr⟩ | ⟨r', hr, hrefusable⟩
    · rw [ht] at h
      cases h
    · rw [hr] at h
      cases h
      exact .inl ⟨htr, rfl⟩
    · rw [hr] at h
      cases h
      exact .inr hrefusable
  · rcases step_cases hrun with ht | ⟨htr', -⟩ | ⟨-, -, h20, -⟩
    · exact ht
    · rw [htr] at htr'
      cases htr'
    · exact absurd h20 hmodel
  · rcases step_end hrun h with ⟨hcfg, hicount, hr⟩ | ⟨hsup, hcfg, hicount, imm, rest, hf, hr⟩ | ⟨hown, hcfg, hr⟩
    · refine ⟨hcfg, fun _ => hicount, ?_⟩
      obtain hr | ⟨hr, hdelivery⟩ := hr
      · rw [hr]
        exact ⟨nofun, nofun, nofun⟩
      · rw [hr]
        exact ⟨nofun, nofun, fun _ => hdelivery⟩
    · refine ⟨hcfg, fun _ => hicount, ?_⟩
      rw [hr]
      rcases stopCondition_cases imm with ⟨himm, hstop⟩ | ⟨himm, hstop⟩
      · rw [hstop]
        exact ⟨nofun, fun _ => ⟨hsup, imm, rest, hf, fun _ => himm, fun _ => rfl⟩, nofun⟩
      · rw [hstop]
        exact ⟨nofun, fun _ => ⟨hsup, imm, rest, hf, nofun, fun h => absurd h himm⟩, nofun⟩
    · rw [hr]
      exact ⟨hcfg, fun h => absurd h hown, nofun, nofun, nofun⟩

end Sys2Proof.Machine
end

section
/-! SUPPORT. The reset procedure case by case (R494, R495), and the first step after it (R498). -/

namespace Sys2Proof.Machine

/-! ## The cleared registers -/

section
variable (s : State)

theorem State.memGet_cleared (fc : FC) (a : Word) (n : Nat) : s.cleared.memGet fc a n = s.memGet fc a n :=
  State.memGet_congr (s := s) (t := s.cleared) rfl rfl rfl fc a n

theorem State.called_cleared (fc : FC) (a : Word) (n : Nat) : s.cleared.called fc a n = (s.called fc a n).cleared := by
  unfold State.called
  exact (apply_ite State.cleared (touches s.cfg.mem.own fc a n = true) { s with draws := s.draws + 1 } s).symm

theorem State.cleared_sr : s.cleared.sr = 0x2700#16 := by
  change 0x2700#16 &&& s.cfg.model.srMask = 0x2700#16
  cases s.cfg.model with
  | mc68000 | mc68010 | mc68020 => decide

/-- The cleared registers with the values of the two reset vectors. -/
def State.booted (ssp npc : Word) : State := { s.cleared with isp := ssp, pc := npc }

variable (ssp npc : Word)

theorem State.booted_supervisor : (s.booted ssp npc).supervisor = true := by
  rw [State.supervisor, show (s.booted ssp npc).sr = 0x2700#16 from s.cleared_sr]
  decide

theorem State.booted_getSP : (s.booted ssp npc).getSP = ssp := by
  have hmaster : (s.booted ssp npc).master = false := by
    rw [State.master, show (s.booted ssp npc).sr = 0x2700#16 from s.cleared_sr]
    decide
  have hstack : (s.booted ssp npc).activeStack = .isp := by
    simp [State.activeStack, s.booted_supervisor, hmaster]
  rw [State.getSP, hstack]
  rfl

/-- The handler's first word is fetched in supervisor program space. -/
theorem State.memGet_booted : (s.booted ssp npc).memGet (s.booted ssp npc).progFC npc 2 = s.memGet 6 npc 2 := by
  rw [State.progFC, s.booted_supervisor]
  exact State.memGet_congr rfl rfl rfl 6 npc 2

theorem State.fetchWordAt_booted {w : Word} (hnpc : odd npc = false) (hw : s.memGet 6 npc 2 = some w) :
    (s.booted ssp npc).fetchWordAt npc = .ok (w.setWidth 16) := by
  simp only [State.fetchWordAt, hnpc, Bool.false_eq_true, if_false, s.memGet_booted, hw]

theorem State.fetchWordAt_booted_error (h : odd npc = true ∨ s.memGet 6 npc 2 = none) :
    ∃ x, (s.booted ssp npc).fetchWordAt npc = .error x := by
  cases hnpc : odd npc with
  | true => exact ⟨_, if_pos hnpc⟩
  | false =>
    have hw := h.resolve_left (by simp [hnpc])
    exact ⟨.busError, by simp only [State.fetchWordAt, hnpc, Bool.false_eq_true, if_false, s.memGet_booted, hw]⟩

end

/-! ## How the reset procedure ends -/

section
variable {s : State}

theorem resetProcedure_no_ssp (h : s.memGet 6 0 4 = none) :
    resetProcedure s = ((s.called 6 0 4).booted 0 0).halt := by
  simp only [resetProcedure, State.memGet_cleared, h, State.called_cleared]
  rfl

section
variable {ssp : Word} (hssp : s.memGet 6 0 4 = some ssp)
include hssp

theorem resetProcedure_no_pc (h : (s.called 6 0 4).memGet 6 4 4 = none) :
    resetProcedure s = (((s.called 6 0 4).called 6 4 4).booted 0 0).halt := by
  simp only [resetProcedure, State.memGet_cleared, hssp, State.called_cleared, h]
  rfl

variable {npc : Word} (hnpc : (s.called 6 0 4).memGet 6 4 4 = some npc)
include hnpc

theorem resetProcedure_unfetched {u : State} (hu : u = ((s.called 6 0 4).called 6 4 4).booted ssp npc) {x : Exc}
    (h : u.fetchWordAt npc = .error x) : resetProcedure s = (u.afterFetch npc).halt := by
  subst hu
  unfold State.booted at h
  simp only [resetProcedure, State.memGet_cleared, hssp, State.called_cleared, hnpc, h]
  rfl

theorem resetProcedure_fetched {u : State} (hu : u = ((s.called 6 0 4).called 6 4 4).booted ssp npc) {w : Half}
    (h : u.fetchWordAt npc = .ok w) :
    resetProcedure s = { u.afterFetch npc with opcode := w, run := .running } := by
  subst hu
  unfold State.booted at h
  simp only [resetProcedure, State.memGet_cleared, hssp, State.called_cleared, hnpc, h]
  rfl

/-- With both vectors read, the registers hold them. -/
theorem resetProcedure_booted :
    ∃ w r k, resetProcedure s = { s.booted ssp npc with opcode := w, run := r, draws := k } := by
  obtain ⟨k, hk⟩ := (s.called 6 0 4).called_only_draws 6 4 4
  obtain ⟨k', hk'⟩ := s.called_only_draws 6 0 4
  obtain ⟨k'', hk''⟩ := (((s.called 6 0 4).called 6 4 4).booted ssp npc).afterFetch_only_draws npc
  have hbooted : ((s.called 6 0 4).called 6 4 4).booted ssp npc = { s.booted ssp npc with draws := k } := by
    rw [hk, hk']
    rfl
  cases hw : (((s.called 6 0 4).called 6 4 4).booted ssp npc).fetchWordAt npc with
  | ok w =>
    rw [resetProcedure_fetched hssp hnpc rfl hw, hk'', hbooted]
    exact ⟨_, _, _, rfl⟩
  | error x =>
    rw [resetProcedure_unfetched hssp hnpc rfl hw, hk'', hbooted]
    exact ⟨_, _, _, rfl⟩

end

/-- A vector that cannot be read leaves zeros. -/
theorem resetProcedure_no_vector (h : s.memGet 6 0 4 = none ∨ (s.called 6 0 4).memGet 6 4 4 = none) :
    ∃ k, resetProcedure s = ({ s.booted 0 0 with draws := k } : State).halt := by
  obtain ⟨k, hk⟩ := s.called_only_draws 6 0 4
  obtain ⟨k', hk'⟩ := (s.called 6 0 4).called_only_draws 6 4 4
  cases hssp : s.memGet 6 0 4 with
  | none =>
    rw [resetProcedure_no_ssp hssp, hk]
    exact ⟨_, rfl⟩
  | some ssp =>
    rw [resetProcedure_no_pc hssp (h.resolve_left (by rw [hssp]; nofun)), hk', hk]
    exact ⟨_, rfl⟩

/-- However the host answers, the reset procedure leaves the cleared registers, two values of vectors, a prefetched word,
a run condition and a count of calls. -/
theorem resetProcedure_only (s : State) : ∃ ssp npc w r k,
    resetProcedure s = { s.booted ssp npc with opcode := w, run := r, draws := k } := by
  cases hssp : s.memGet 6 0 4 with
  | none =>
    obtain ⟨k, h⟩ := resetProcedure_no_vector (.inl hssp)
    exact ⟨0, 0, _, _, _, h⟩
  | some ssp =>
    cases hnpc : (s.called 6 0 4).memGet 6 4 4 with
    | none =>
      obtain ⟨k, h⟩ := resetProcedure_no_vector (.inr hnpc)
      exact ⟨0, 0, _, _, _, h⟩
    | some npc => exact ⟨ssp, npc, resetProcedure_booted hssp hnpc⟩

theorem resetProcedure_sr (s : State) : (resetProcedure s).sr = 0x2700#16 := by
  obtain ⟨ssp, npc, w, r, k, h⟩ := resetProcedure_only s
  rw [h]
  exact s.cleared_sr

end

/-- On a plain host a read always gives the bytes and makes no call that counts. -/
theorem State.memGet_of_plainHost {s : State} (h : s.plainHost) (fc : FC) (a : Word) (n : Nat) :
    s.memGet fc a n = some (s.bytesAt fc a n) := State.memGet_of_accepts (h.accepts ..)

theorem State.called_of_plainHost {s : State} (h : s.plainHost) (fc : FC) (a : Word) (n : Nat) :
    s.called fc a n = s := State.called_of_accepts (h.accepts .read fc a n)

/-- Settles O55: by how the two vector reads and the prefetch end. -/
theorem resetProcedure_spec : Obligations.ResetProcedure := by
  unfold Obligations.ResetProcedure
  intro s
  obtain ⟨ssp, npc, w, r, k, hreset⟩ := resetProcedure_only s
  refine ⟨fun n => ?data, fun n hn => ?address, ?_, ?_, ?_, ?_, ?_, ?_, ?_, resetProcedure_sr s, ?_, ?_, ?_,
    fun ssp npc hssp hnpc => ?vectors, fun h => ?noVector, fun h => ?plain⟩
  case data =>
    rw [hreset]
    exact Vector.getElem_replicate ..
  case address =>
    have hlt : n.val < 7 := by
      have hne : n.val ≠ 7 := fun h => hn (Fin.ext h)
      omega
    rw [hreset, State.getA, dif_pos hlt]
    exact Vector.getElem_replicate ..
  case vectors =>
    obtain ⟨w, r, k, hreset⟩ := resetProcedure_booted hssp hnpc
    refine ⟨by rw [hreset]; rfl, by rw [hreset]; rfl, ?_, fun w hodd hw => ?_, fun h => ?_⟩
    · rw [hreset]
      exact s.booted_getSP ssp npc
    · rw [resetProcedure_fetched hssp hnpc rfl (State.fetchWordAt_booted _ ssp npc hodd hw)]
      exact ⟨rfl, rfl⟩
    · obtain ⟨x, hx⟩ := State.fetchWordAt_booted_error _ ssp npc h
      rw [resetProcedure_unfetched hssp hnpc rfl hx]
      rfl
  case noVector =>
    obtain ⟨k, hreset⟩ := resetProcedure_no_vector h
    rw [hreset]
    exact ⟨rfl, rfl, rfl⟩
  case plain =>
    rw [State.called_of_plainHost h, State.called_of_plainHost h]
    exact ⟨State.memGet_of_plainHost h .., State.memGet_of_plainHost h .., rfl⟩
  all_goals
    rw [hreset]
    rfl

/-! ## The first step (R498) -/

theorem resetProcedure_untraced (s : State) : (resetProcedure s).traced = false := by
  rw [State.traced, resetProcedure_sr]
  decide

/-- The state with its `pc` and its counter moved on. -/
def State.moved (t : State) (p : Word) (n : Nat) : State := { t with pc := p, icount := n }

/-- A fetch asks neither for `pc` nor for the counter. -/
theorem State.afterFetch_moved (t : State) (p q : Word) (n : Nat) :
    (t.moved p n).afterFetch q = (t.afterFetch q).moved p n := by
  unfold State.afterFetch
  split
  · rfl
  · exact (apply_ite (State.moved · p n) (touches t.cfg.mem.own t.progFC q 2 = true)
      { t with draws := t.draws + 1 } t).symm

/-- A NOP goes on to the prefetch: `pc` moves on by 2, one instruction is counted. -/
theorem exec_nop_fetched {t : State} {w : Half} (hrun : t.run = .running) (hw : t.fetchWordAt (t.pc + 2) = .ok w) :
    exec .nop t =
      .next { t.afterFetch (t.pc + 2) with pc := t.pc + 2, opcode := w, icount := t.icount + 1 } := by
  have hrule : exec .nop t = .next (finish true t.pc t.started) := 
    cycle_ok (ts := []) (pure_run () t.started)
  have hfinish : finish true t.pc t.started = { t.started.counted.afterFetch t.started.pc with opcode := w } :=
    finish_ok ((State.started_run t).trans hrun) hw
  have hafter : t.started.counted.afterFetch t.started.pc =
      (t.afterFetch (t.pc + 2)).moved (t.pc + 2) (t.icount + 1) := t.afterFetch_moved _ _ _
  rw [hrule, hfinish, hafter]
  rfl

/-- With empty memory under the default parameters both vectors and the first word are 0. -/
theorem resetProcedure_empty {s : State} (hcfg : s.cfg = Params.default) (hmem : s.mem = []) :
    resetProcedure s = { s.booted 0 0 with opcode := 0, run := .running } := by
  have hplain : s.plainHost := by
    rw [State.plainHost, hcfg]
    exact ⟨rfl, rfl, rfl, rfl⟩
  have hzero (a : Word) (n : Nat) (h : State.reset.bytesAt 6 a n = 0) : s.memGet 6 a n = some 0 := by
    rw [State.memGet_of_plainHost hplain, State.bytesAt_mem_congr (s := State.reset) hcfg hmem, h]
  have hcalled (a : Word) : s.called 6 a 4 = s := State.called_of_plainHost hplain 6 a 4
  have hu : s.booted 0 0 = ((s.called 6 0 4).called 6 4 4).booted 0 0 := by rw [hcalled, hcalled]
  have hword : (s.booted 0 0).fetchWordAt 0 = .ok 0 :=
    s.fetchWordAt_booted 0 0 (by decide) (hzero 0 2 (by decide))
  have hfetch : (s.booted 0 0).afterFetch 0 = s.booted 0 0 :=
    if_neg (by decide) |>.trans (State.called_of_plainHost (s := s.booted 0 0) hplain _ 0 2)
  rw [resetProcedure_fetched (hzero 0 4 (by decide)) (by rw [hcalled]; exact hzero 4 4 (by decide)) hu hword, hfetch]

/-- Settles O56: the NOP followed to its prefetch; the reset state field by field. -/
theorem firstStepAfterReset : Obligations.FirstStepAfterReset := by
  unfold Obligations.FirstStepAfterReset
  refine ⟨fun s w => ?_, fun s hcfg hmem hicount hdraws => ?_, State.reset_inv⟩
  · intro t hrun hop hw
    have hstep : step t = exec .nop t :=
      stepRunsEncoded t .nop 0x4E71 [] rfl rfl hrun (resetProcedure_untraced s) rfl hop (by simp)
    exact hstep.trans (exec_nop_fetched hrun hw)
  · rw [resetProcedure_empty hcfg hmem]
    have hsr := State.reset.cleared_sr
    obtain ⟨⟩ := s
    cases hcfg
    cases hmem
    cases hicount
    cases hdraws
    exact congrArg (fun v => ({ State.reset with sr := v } : State)) hsr

end Sys2Proof.Machine
end
